-- ==== Sys2Proof/Word.lean ====
section
/-! DEFINITION. The word types of the KT-9144 and the field and byte arithmetic that has no choice in it. -/

namespace Sys2Proof

/-- A register or a doubleword. -/
abbrev W64 := BitVec 64
/-- A Coxswain (KA-C) word. -/
abbrev W32 := BitVec 32
/-- A vector register (Table 02-1). -/
abbrev W256 := BitVec 256
/-- A 64-byte line (R172). -/
abbrev Line := BitVec 512
/-- A byte. -/
abbrev Byte := BitVec 8
/-- A register field of an instruction word (Table 02-2). -/
abbrev RegNo := BitVec 5

end Sys2Proof
end

