-- ==== Sys2Proof/Types.lean ====
section
/-! DEFINITION. The operand types of the commands: agents, requesters, units and what a bus, a host or a board hands in. -/

namespace Sys2Proof

/-- An executing agent: main core `n` of 144, or Coxswain pair `k` of 4 (R24, Table 10-1). -/
inductive Agent where
  | core (n : Nat)
  | cx (k : Nat)
  deriving DecidableEq, Repr

/-- The four levels (Table 03-1). -/
inductive Level where
  | U | K | H | F
  deriving DecidableEq, Repr

/-- The two worlds (03.1). -/
inductive World where
  | openW | sealedW
  deriving DecidableEq, Repr

/-- Who makes a register access: a main core at the level it runs at, a Coxswain pair, the debug port, an I/O stop
(a device) or the boot logic (R6, R583, R687). -/
inductive Req where
  | core (n : Nat) (l : Level) (w : World)
  | cx (k : Nat)
  | debug
  | io (n : Nat)
  deriving DecidableEq, Repr

/-- Where a memory instruction stands in the pipeline when it is performed (R158, Table 04-7). -/
inductive Path where
  | retired | speculative | wrongPath
  deriving DecidableEq, Repr

/-- The streaming hint of a MEM-format word and the instruction's place in the pipeline. -/
structure Hint where
  s : Bool
  path : Path
  deriving DecidableEq, Repr

/-- The hardware prefetchers (Table 05-2). -/
inductive Prefetcher where
  | nextLine | stride | stream
  deriving DecidableEq, Repr

/-- A cache (Table 05-1, R436). -/
inductive CacheId where
  | l1i (n : Nat) | l1d (n : Nat) | l2 (n : Nat) | l3 (t : Nat) | cxI (k : Nat) | cxD (k : Nat)
  deriving DecidableEq, Repr

/-- A register of a system-address-map entry (R277, R539). -/
inductive SamReg where
  | RADDR | RCFG | ABASE | ACFG
  deriving DecidableEq, Repr

/-- A resource that can be taken out of service (R47). -/
inductive Resource where
  | tile (t : Nat) | channel (n : Nat) | sweep (n : Nat) | io (n : Nat)
  deriving DecidableEq, Repr

/-- A router input (R224). -/
inductive PortDir where
  | own | north | east | south | west
  deriving DecidableEq, Repr

/-- A flit: plane (0 and 1 data, 2 control) and the fields of Tables 06-2 and 06-4. `addr` is PA[51:6] of a data flit or the
register offset of a control flit; `hchkOk` and `dchkOk` say whether the two check fields match. -/
structure Flit where
  plane : BitVec 2
  chan : BitVec 2
  vn : Bool
  wpt : Bool
  wp : Byte
  op : BitVec 6
  dst : Byte
  src : Byte
  tid : BitVec 12
  addr : BitVec 46
  key : BitVec 12
  status : BitVec 3
  be : Byte
  poison : Bool
  fin : Bool
  more : Bool
  alloc : Bool
  payload : Line
  hchkOk : Bool
  dchkOk : Bool
  deriving DecidableEq, Repr

/-- The acknowledged broadcasts (Table 06-13). -/
inductive BcastKind where
  | samUpd | tlbi | potInv | iotuInv | tagRecov
  deriving DecidableEq, Repr

/-- A vector controller of a main core as a delivery names it (R574, R580, R581). -/
inductive Controller where
  | openK
  | openH
  | sealedK (part : Nat)
  deriving DecidableEq, Repr

/-- A unit that holds translations (R120, R126, R546). -/
inductive XlUnit where
  | core (n : Nat) | cx (k : Nat) | iotu (n : Nat) | sweep (e : Nat)
  deriving DecidableEq, Repr

/-- What the error-correcting code finds in data read from DRAM (Table 07-10). -/
inductive EccOutcome where
  | clean
  | corrected (device : Nat)
  | uncorrectable
  deriving DecidableEq, Repr

/-- The atomic operations of a TLP. -/
inductive AtomOp where
  | fetchAdd | swap | cas
  deriving DecidableEq, Repr

/-- A completion status of a TLP. -/
inductive CplStatus where
  | sc | ur | ca | rrs
  deriving DecidableEq, Repr

/-- An inbound TLP header: link, requester ID, tag, address, length in bytes, and the bits that Table 13-19 judges. -/
structure Tlp where
  link : Nat
  rid : BitVec 16
  tag : BitVec 14
  addr : W64
  len : Nat
  relaxed : Bool
  noSnoop : Bool
  ep : Bool
  malformed : Bool
  unsupported : Bool
  deriving DecidableEq, Repr

/-- How a host answers the endpoint's read or write of host memory. -/
inductive HostReply where
  | data (bytes : List Byte)
  | accepted
  | error
  deriving DecidableEq, Repr

/-- An error bank (Table 14-6). -/
inductive BankId where
  | core (n : Nat) | tile (t : Nat) | mc (n : Nat) | io (n : Nat) | sv (k : Nat) | fabric (stop : Nat)
  deriving DecidableEq, Repr

/-- The class of an error record (Table 14-7). -/
inductive ErrClass where
  | corrected | deferred | uncorrected | fatal
  deriving DecidableEq, Repr

/-- The content of a new error record (R593, Table 14-7). -/
structure ErrRec where
  cls : ErrClass
  addr : Option W64
  misc : Option W64
  inj : Bool
  secret : Bool
  stop : Byte
  unit : Byte
  type : Byte
  info : BitVec 16
  deriving DecidableEq, Repr

/-- A unit with Erg counters (16.1, 16.5, 16.6). -/
inductive ErgUnit where
  | core (n : Nat) | tile (t : Nat) | mc (n : Nat) | io (n : Nat) | probe (stop : Nat)
  deriving DecidableEq, Repr

/-- A field of an endpoint function's configuration space that a host configuration request sets (13.5). -/
inductive CfgField where
  | memorySpaceEnable | busMasterEnable | vfEnable | msixEnable | functionMask
  deriving DecidableEq, Repr

end Sys2Proof
end

