-- ==== Sys2Proof/Syntax.lean ====
section
/-! DEFINITION. The commands of the KT-9144: one constructor per row of the table of operations and events. An instruction
of a main core or of a Coxswain pair names the agent that executes it and its fields; an event names the unit it happens in
and what the bus, the host or the board hands in. The docstring of a constructor is the row and its governing rule. -/

namespace Sys2Proof

/-- The commands, in the order of the table. -/
inductive Instr where
  /-- COLD_POWER_ON (R504). The always-on supply comes within limits and AO_PWROK rises; the always-on reset is released, the straps are sampled and the service domain is raised. -/
  | coldPowerOn (straps : BitVec 5)
  /-- FUSE_LOAD_COMPLETE (R13). The fuse load ends; ID registers are loaded and CX0 leaves reset, or fuse_ok reads 0 and nothing else is released. -/
  | fuseLoadComplete (ok : Bool)
  /-- DOMAIN_BRINGUP_STEP (R502). A step of a domain's four-step bring-up completes, its PWR_RDY bit sets and the next step begins. -/
  | domainBringupStep (d : Nat)
  /-- BRINGUP_TIMEOUT (R503). A bring-up step misses its limit; the domain stays at that step and the service, core-rail or other case applies. -/
  | bringupTimeout (d : Nat)
  /-- REFCLK_LOSS (R683). REFCLK shows no edge for 100 ns; the loss is logged and the always-on clock switches to the on-die oscillator. -/
  | refclkLoss
  /-- REGISTER_WRITE (R17). A write to a register that has no behaviour of its own sets its fields by access type, or is ignored when unoccupied or not permitted. -/
  | registerWrite (r : Req) (addr : Nat) (v : W64)
  /-- ILLEGAL_ENCODING (R55). A core executes an encoding with an unassigned opcode, func, sub, vf or cond, or a non-zero must-be-zero field, and raises Illegal instruction. -/
  | illegalEncoding (a : Agent) (w : W32)
  /-- ADD (R56). ALU add of two registers. -/
  | add (a : Agent) (rd rs1 rs2 : RegNo)
  /-- SUB (R56). ALU subtract of two registers. -/
  | sub (a : Agent) (rd rs1 rs2 : RegNo)
  /-- AND (R56). ALU bitwise AND. -/
  | and (a : Agent) (rd rs1 rs2 : RegNo)
  /-- OR (R56). ALU bitwise OR. -/
  | or (a : Agent) (rd rs1 rs2 : RegNo)
  /-- XOR (R56). ALU bitwise XOR. -/
  | xor (a : Agent) (rd rs1 rs2 : RegNo)
  /-- ANDN (R56). ALU AND with the complement of rs2. -/
  | andn (a : Agent) (rd rs1 rs2 : RegNo)
  /-- SLL (R57). Logical shift left by rs2[5:0]. -/
  | sll (a : Agent) (rd rs1 rs2 : RegNo)
  /-- SRL (R57). Logical shift right by rs2[5:0]. -/
  | srl (a : Agent) (rd rs1 rs2 : RegNo)
  /-- SRA (R57). Arithmetic shift right by rs2[5:0]. -/
  | sra (a : Agent) (rd rs1 rs2 : RegNo)
  /-- ROR (R57). Rotate right by rs2[5:0]. -/
  | ror (a : Agent) (rd rs1 rs2 : RegNo)
  /-- ADDW (R56). 32-bit add, sign-extended result. -/
  | addw (a : Agent) (rd rs1 rs2 : RegNo)
  /-- SUBW (R56). 32-bit subtract, sign-extended result. -/
  | subw (a : Agent) (rd rs1 rs2 : RegNo)
  /-- CLZ (R56). Count leading zeros of rs1. -/
  | clz (a : Agent) (rd rs1 : RegNo)
  /-- CTZ (R56). Count trailing zeros of rs1. -/
  | ctz (a : Agent) (rd rs1 : RegNo)
  /-- POPC (R56). Count one bits of rs1. -/
  | popc (a : Agent) (rd rs1 : RegNo)
  /-- BSWAP (R56). Reverse the byte order of rs1. -/
  | bswap (a : Agent) (rd rs1 : RegNo)
  /-- MIN (R56). Signed minimum. -/
  | min (a : Agent) (rd rs1 rs2 : RegNo)
  /-- MAX (R56). Signed maximum. -/
  | max (a : Agent) (rd rs1 rs2 : RegNo)
  /-- MINU (R56). Unsigned minimum. -/
  | minu (a : Agent) (rd rs1 rs2 : RegNo)
  /-- MAXU (R56). Unsigned maximum. -/
  | maxu (a : Agent) (rd rs1 rs2 : RegNo)
  /-- SETCC (R56). Writes 1 when the selected condition holds for rs1 and rs2, else 0. -/
  | setcc (a : Agent) (cond : BitVec 3) (rd rs1 rs2 : RegNo)
  /-- MUL (R56). Low 64 bits of a product. -/
  | mul (a : Agent) (rd rs1 rs2 : RegNo)
  /-- MULH (R56). High 64 bits of a signed product. -/
  | mulh (a : Agent) (rd rs1 rs2 : RegNo)
  /-- MULHU (R56). High 64 bits of an unsigned product. -/
  | mulhu (a : Agent) (rd rs1 rs2 : RegNo)
  /-- MULW (R56). 32-bit multiply. -/
  | mulw (a : Agent) (rd rs1 rs2 : RegNo)
  /-- DIV (R58). Signed quotient, never trapping. -/
  | div (a : Agent) (rd rs1 rs2 : RegNo)
  /-- DIVU (R58). Unsigned quotient. -/
  | divu (a : Agent) (rd rs1 rs2 : RegNo)
  /-- REM (R58). Signed remainder. -/
  | rem (a : Agent) (rd rs1 rs2 : RegNo)
  /-- REMU (R58). Unsigned remainder. -/
  | remu (a : Agent) (rd rs1 rs2 : RegNo)
  /-- DIVW (R58). 32-bit signed quotient. -/
  | divw (a : Agent) (rd rs1 rs2 : RegNo)
  /-- DIVUW (R58). 32-bit unsigned quotient. -/
  | divuw (a : Agent) (rd rs1 rs2 : RegNo)
  /-- ADDI (R56). Add a sign-extended 14-bit immediate. -/
  | addi (a : Agent) (rd rs1 : RegNo) (imm : BitVec 14)
  /-- ADDIW (R56). 32-bit add of a sign-extended immediate. -/
  | addiw (a : Agent) (rd rs1 : RegNo) (imm : BitVec 14)
  /-- ANDI (R56). AND with a sign-extended immediate. -/
  | andi (a : Agent) (rd rs1 : RegNo) (imm : BitVec 14)
  /-- ORI (R56). OR with a zero-extended immediate. -/
  | ori (a : Agent) (rd rs1 : RegNo) (imm : BitVec 14)
  /-- XORI (R56). XOR with a zero-extended immediate. -/
  | xori (a : Agent) (rd rs1 : RegNo) (imm : BitVec 14)
  /-- SLTI (R56). Signed set-less-than immediate. -/
  | slti (a : Agent) (rd rs1 : RegNo) (imm : BitVec 14)
  /-- SLTIU (R56). Unsigned set-less-than immediate. -/
  | sltiu (a : Agent) (rd rs1 : RegNo) (imm : BitVec 14)
  /-- SLLI (R57). Shift left by an immediate amount (SHI selector 0). -/
  | slli (a : Agent) (rd rs1 : RegNo) (sh : BitVec 6)
  /-- SRLI (R57). Logical shift right by an immediate amount. -/
  | srli (a : Agent) (rd rs1 : RegNo) (sh : BitVec 6)
  /-- SRAI (R57). Arithmetic shift right by an immediate amount. -/
  | srai (a : Agent) (rd rs1 : RegNo) (sh : BitVec 6)
  /-- RORI (R57). Rotate right by an immediate amount. -/
  | rori (a : Agent) (rd rs1 : RegNo) (sh : BitVec 6)
  /-- SHORI (R56). Shifts rs1 left by 14 and ORs in a zero-extended immediate. -/
  | shori (a : Agent) (rd rs1 : RegNo) (imm : BitVec 14)
  /-- ADDPC (R56). Adds a sign-extended, optionally shifted immediate to pc. -/
  | addpc (a : Agent) (rd : RegNo) (shift : Bool) (imm : BitVec 14)
  /-- BCC (R59). Compare two registers and branch when the condition holds. -/
  | bcc (a : Agent) (cond : BitVec 3) (rs1 rs2 : RegNo) (off : BitVec 12)
  /-- BCCI (R59). Compare a register with an immediate and branch when the condition holds. -/
  | bcci (a : Agent) (cond : BitVec 3) (rs1 : RegNo) (imm : Byte) (off : BitVec 9)
  /-- B (R54). Unconditional relative branch. -/
  | b (a : Agent) (off : BitVec 24)
  /-- BL (R54). Branch and link into g31; on a Coxswain pair, CALL into the next window. -/
  | bl (a : Agent) (off : BitVec 24)
  /-- JR (R60). Indirect jump with link, raising Misaligned fetch on a misaligned target. -/
  | jr (a : Agent) (rd rs1 : RegNo) (imm : BitVec 14)
  /-- LB (R63). Load a sign-extended byte. -/
  | lb (a : Agent) (rt rb : RegNo) (disp : BitVec 14) (h : Hint)
  /-- LBU (R63). Load a zero-extended byte. -/
  | lbu (a : Agent) (rt rb : RegNo) (disp : BitVec 14) (h : Hint)
  /-- LH (R63). Load a sign-extended halfword. -/
  | lh (a : Agent) (rt rb : RegNo) (disp : BitVec 14) (h : Hint)
  /-- LHU (R63). Load a zero-extended halfword. -/
  | lhu (a : Agent) (rt rb : RegNo) (disp : BitVec 14) (h : Hint)
  /-- LW (R63). Load a sign-extended word. -/
  | lw (a : Agent) (rt rb : RegNo) (disp : BitVec 14) (h : Hint)
  /-- LWU (R63). Load a zero-extended word. -/
  | lwu (a : Agent) (rt rb : RegNo) (disp : BitVec 14) (h : Hint)
  /-- LD (R63). Load a doubleword. -/
  | ld (a : Agent) (rt rb : RegNo) (disp : BitVec 14) (h : Hint)
  /-- LDP (R64). Load a 16-byte pair into an even register pair. -/
  | ldp (a : Agent) (rt rb : RegNo) (disp : BitVec 14) (h : Hint)
  /-- SB (R63). Store a byte. -/
  | sb (a : Agent) (rt rb : RegNo) (disp : BitVec 14) (h : Hint)
  /-- SH (R63). Store a halfword. -/
  | sh (a : Agent) (rt rb : RegNo) (disp : BitVec 14) (h : Hint)
  /-- SW (R63). Store a word. -/
  | sw (a : Agent) (rt rb : RegNo) (disp : BitVec 14) (h : Hint)
  /-- SD (R63). Store a doubleword. -/
  | sd (a : Agent) (rt rb : RegNo) (disp : BitVec 14) (h : Hint)
  /-- SDP (R64). Store a 16-byte register pair. -/
  | sdp (a : Agent) (rt rb : RegNo) (disp : BitVec 14) (h : Hint)
  /-- VLD (R63). Load 32 bytes into a vector register. -/
  | vld (a : Agent) (rt rb : RegNo) (disp : BitVec 14) (h : Hint)
  /-- VST (R63). Store 32 bytes of a vector register. -/
  | vst (a : Agent) (rt rb : RegNo) (disp : BitVec 14) (h : Hint)
  /-- CAS (R67). Atomic compare-and-swap. -/
  | cas (a : Agent) (rd rs1 rs2 : RegNo) (ord sz : BitVec 2)
  /-- SWP (R67). Atomic swap. -/
  | swp (a : Agent) (rd rs1 rs2 : RegNo) (ord sz : BitVec 2)
  /-- LDADD (R67). Atomic fetch-and-add. -/
  | ldadd (a : Agent) (rd rs1 rs2 : RegNo) (ord sz : BitVec 2)
  /-- LDAND (R67). Atomic fetch-and-AND. -/
  | ldand (a : Agent) (rd rs1 rs2 : RegNo) (ord sz : BitVec 2)
  /-- LDOR (R67). Atomic fetch-and-OR. -/
  | ldor (a : Agent) (rd rs1 rs2 : RegNo) (ord sz : BitVec 2)
  /-- LDXOR (R67). Atomic fetch-and-XOR. -/
  | ldxor (a : Agent) (rd rs1 rs2 : RegNo) (ord sz : BitVec 2)
  /-- LDMIN (R67). Atomic fetch-and-signed-minimum. -/
  | ldmin (a : Agent) (rd rs1 rs2 : RegNo) (ord sz : BitVec 2)
  /-- LDMAX (R67). Atomic fetch-and-signed-maximum. -/
  | ldmax (a : Agent) (rd rs1 rs2 : RegNo) (ord sz : BitVec 2)
  /-- LDMINU (R67). Atomic fetch-and-unsigned-minimum. -/
  | ldminu (a : Agent) (rd rs1 rs2 : RegNo) (ord sz : BitVec 2)
  /-- LDMAXU (R67). Atomic fetch-and-unsigned-maximum. -/
  | ldmaxu (a : Agent) (rd rs1 rs2 : RegNo) (ord sz : BitVec 2)
  /-- LR (R69). Load and set a reservation on the 64-byte line. -/
  | lr (a : Agent) (rd rs1 : RegNo) (ord sz : BitVec 2)
  /-- SC (R70). Store conditionally on the reservation and clear it. -/
  | sc (a : Agent) (rd rs1 rs2 : RegNo) (ord sz : BitVec 2)
  /-- LDA (R72). Load-acquire. -/
  | lda (a : Agent) (rd rs1 : RegNo) (sz : BitVec 2)
  /-- STL (R72). Store-release. -/
  | stl (a : Agent) (rs1 rs2 : RegNo) (sz : BitVec 2)
  /-- VADD (R52). Predicated vector integer add. -/
  | vadd (a : Agent) (vd vs1 vs2 : RegNo) (pm : BitVec 3) (esz : BitVec 2)
  /-- VSUB (R52). Predicated vector integer subtract. -/
  | vsub (a : Agent) (vd vs1 vs2 : RegNo) (pm : BitVec 3) (esz : BitVec 2)
  /-- VMUL (R52). Predicated vector multiply, low half. -/
  | vmul (a : Agent) (vd vs1 vs2 : RegNo) (pm : BitVec 3) (esz : BitVec 2)
  /-- VAND (R52). Predicated vector AND. -/
  | vand (a : Agent) (vd vs1 vs2 : RegNo) (pm : BitVec 3) (esz : BitVec 2)
  /-- VOR (R52). Predicated vector OR. -/
  | vor (a : Agent) (vd vs1 vs2 : RegNo) (pm : BitVec 3) (esz : BitVec 2)
  /-- VXOR (R52). Predicated vector XOR. -/
  | vxor (a : Agent) (vd vs1 vs2 : RegNo) (pm : BitVec 3) (esz : BitVec 2)
  /-- VANDN (R52). Predicated vector AND-NOT. -/
  | vandn (a : Agent) (vd vs1 vs2 : RegNo) (pm : BitVec 3) (esz : BitVec 2)
  /-- VMIN (R52). Predicated vector signed minimum. -/
  | vmin (a : Agent) (vd vs1 vs2 : RegNo) (pm : BitVec 3) (esz : BitVec 2)
  /-- VMAX (R52). Predicated vector signed maximum. -/
  | vmax (a : Agent) (vd vs1 vs2 : RegNo) (pm : BitVec 3) (esz : BitVec 2)
  /-- VMINU (R52). Predicated vector unsigned minimum. -/
  | vminu (a : Agent) (vd vs1 vs2 : RegNo) (pm : BitVec 3) (esz : BitVec 2)
  /-- VMAXU (R52). Predicated vector unsigned maximum. -/
  | vmaxu (a : Agent) (vd vs1 vs2 : RegNo) (pm : BitVec 3) (esz : BitVec 2)
  /-- VSLL (R52). Predicated vector shift left by per-element amounts. -/
  | vsll (a : Agent) (vd vs1 vs2 : RegNo) (pm : BitVec 3) (esz : BitVec 2)
  /-- VSRL (R52). Predicated vector logical shift right. -/
  | vsrl (a : Agent) (vd vs1 vs2 : RegNo) (pm : BitVec 3) (esz : BitVec 2)
  /-- VSRA (R52). Predicated vector arithmetic shift right. -/
  | vsra (a : Agent) (vd vs1 vs2 : RegNo) (pm : BitVec 3) (esz : BitVec 2)
  /-- VADDS (R52). Predicated signed saturating vector add. -/
  | vadds (a : Agent) (vd vs1 vs2 : RegNo) (pm : BitVec 3) (esz : BitVec 2)
  /-- VADDUS (R52). Predicated unsigned saturating vector add. -/
  | vaddus (a : Agent) (vd vs1 vs2 : RegNo) (pm : BitVec 3) (esz : BitVec 2)
  /-- VCMP (R81). Vector compare writing a predicate register. -/
  | vcmp (a : Agent) (cond : BitVec 3) (pd : BitVec 3) (vs1 vs2 : RegNo) (pm : BitVec 3) (esz : BitVec 2)
  /-- VSEL (R81). Selects elements of vs1 or vs2 by predicate. -/
  | vsel (a : Agent) (vd vs1 vs2 : RegNo) (pm : BitVec 3) (esz : BitVec 2)
  /-- VBCAST (R52). Broadcasts a g register into every element. -/
  | vbcast (a : Agent) (vd rs : RegNo) (pm : BitVec 3) (esz : BitVec 2)
  /-- VEXT (R52). Extracts one vector element into a g register. -/
  | vext (a : Agent) (rd vs1 : RegNo) (el : RegNo) (pm : BitVec 3) (esz : BitVec 2)
  /-- VINS (R52). Inserts a g register into one vector element. -/
  | vins (a : Agent) (vd rs : RegNo) (el : RegNo) (pm : BitVec 3) (esz : BitVec 2)
  /-- VPERM (R52). Permutes vector elements by index. -/
  | vperm (a : Agent) (vd vs1 vs2 : RegNo) (pm : BitVec 3) (esz : BitVec 2)
  /-- VRSUM (R52). Reduces active elements by sum into element 0. -/
  | vrsum (a : Agent) (vd vs1 : RegNo) (pm : BitVec 3) (esz : BitVec 2)
  /-- VRMIN (R52). Reduces active elements by signed minimum. -/
  | vrmin (a : Agent) (vd vs1 : RegNo) (pm : BitVec 3) (esz : BitVec 2)
  /-- VRMAX (R52). Reduces active elements by signed maximum. -/
  | vrmax (a : Agent) (vd vs1 : RegNo) (pm : BitVec 3) (esz : BitVec 2)
  /-- VRMINU (R52). Reduces active elements by unsigned minimum. -/
  | vrminu (a : Agent) (vd vs1 : RegNo) (pm : BitVec 3) (esz : BitVec 2)
  /-- VRMAXU (R52). Reduces active elements by unsigned maximum. -/
  | vrmaxu (a : Agent) (vd vs1 : RegNo) (pm : BitVec 3) (esz : BitVec 2)
  /-- VLDM (R79). Predicated vector load of active elements only. -/
  | vldm (a : Agent) (vd rb : RegNo) (pm : BitVec 3) (esz : BitVec 2) (h : Hint)
  /-- VSTM (R79). Predicated vector store of active elements only. -/
  | vstm (a : Agent) (vd rb : RegNo) (pm : BitVec 3) (esz : BitVec 2) (h : Hint)
  /-- VFADD (R698). Vector floating-point add, setting U_FPCTL flags. -/
  | vfadd (a : Agent) (vd vs1 vs2 : RegNo) (pm : BitVec 3) (esz : BitVec 2)
  /-- VFSUB (R698). Vector floating-point subtract. -/
  | vfsub (a : Agent) (vd vs1 vs2 : RegNo) (pm : BitVec 3) (esz : BitVec 2)
  /-- VFMUL (R698). Vector floating-point multiply. -/
  | vfmul (a : Agent) (vd vs1 vs2 : RegNo) (pm : BitVec 3) (esz : BitVec 2)
  /-- VFDIV (R698). Vector floating-point divide. -/
  | vfdiv (a : Agent) (vd vs1 vs2 : RegNo) (pm : BitVec 3) (esz : BitVec 2)
  /-- VFMA (R698). Vector fused multiply-add with one rounding. -/
  | vfma (a : Agent) (vd vs1 vs2 : RegNo) (pm : BitVec 3) (esz : BitVec 2)
  /-- VFMIN (R698). Vector floating-point minimum. -/
  | vfmin (a : Agent) (vd vs1 vs2 : RegNo) (pm : BitVec 3) (esz : BitVec 2)
  /-- VFMAX (R698). Vector floating-point maximum. -/
  | vfmax (a : Agent) (vd vs1 vs2 : RegNo) (pm : BitVec 3) (esz : BitVec 2)
  /-- VFSQRT (R698). Vector floating-point square root. -/
  | vfsqrt (a : Agent) (vd vs1 : RegNo) (pm : BitVec 3) (esz : BitVec 2)
  /-- VFCVTI (R698). Converts floating point to signed integer, saturating and setting nv. -/
  | vfcvti (a : Agent) (vd vs1 : RegNo) (pm : BitVec 3) (esz : BitVec 2)
  /-- VFCVTF (R698). Converts signed integer to floating point. -/
  | vfcvtf (a : Agent) (vd vs1 : RegNo) (pm : BitVec 3) (esz : BitVec 2)
  /-- PAND (R81). Predicate AND. -/
  | pand (a : Agent) (pd ps1 ps2 : BitVec 3) (pm : BitVec 3) (esz : BitVec 2)
  /-- POR (R81). Predicate OR. -/
  | por (a : Agent) (pd ps1 ps2 : BitVec 3) (pm : BitVec 3) (esz : BitVec 2)
  /-- PXOR (R81). Predicate XOR. -/
  | pxor (a : Agent) (pd ps1 ps2 : BitVec 3) (pm : BitVec 3) (esz : BitVec 2)
  /-- PNOT (R81). Predicate NOT. -/
  | pnot (a : Agent) (pd ps1 : BitVec 3) (pm : BitVec 3) (esz : BitVec 2)
  /-- PCNT (R81). Counts active elements of a predicate into a g register. -/
  | pcnt (a : Agent) (rd : RegNo) (ps1 : BitVec 3) (pm : BitVec 3) (esz : BitVec 2)
  /-- MFS (R82). Reads a system register, or raises ILL or PRV. -/
  | mfs (a : Agent) (ra : RegNo) (sreg : BitVec 10)
  /-- MTS (R84). Writes a system register; sync-class writes take effect at the next SYNC point, others refetch younger work. -/
  | mts (a : Agent) (ra : RegNo) (sreg : BitVec 10)
  /-- SCALL (R99). System call trap to level K. -/
  | scall (a : Agent) (imm : BitVec 10)
  /-- HCALL (R98). Trap to level H; in the sealed world, partition exit. -/
  | hcall (a : Agent) (imm : BitVec 10)
  /-- FCALL (R99). Trap to level F; illegal in the sealed world. -/
  | fcall (a : Agent) (imm : BitVec 10)
  /-- BRK (R99). Raises Breakpoint. -/
  | brk (a : Agent) (imm : BitVec 10)
  /-- GATE (R105). Open-world H enters a partition after the entry checks; sealed K exits to H. -/
  | gate (a : Agent) (rb : RegNo)
  /-- TRET (R102). Returns from a trap to the saved level and pc; on a Coxswain pair restores the window and replays a recorded divide. -/
  | tret (a : Agent)
  /-- WFI (R165). Waits for an interrupt in Feather or C3. -/
  | wfi (a : Agent)
  /-- SYNC (R83). Context synchronisation: drains, applies sync-class writes and refetches. -/
  | sync (a : Agent)
  /-- RAND (R88). Reads a random value through TRNG_OUT with a success indication. -/
  | rand (a : Agent) (ra rb : RegNo)
  /-- FENCE (R73). Ordering barrier by mask. -/
  | fence (a : Agent) (mask : BitVec 4)
  /-- DC_CLEAN (R87). Writes back the line if dirty and keeps it. -/
  | dcClean (a : Agent) (rb : RegNo)
  /-- DC_CLEANINV (R87). Writes back if dirty and invalidates the line in all caches. -/
  | dcCleaninv (a : Agent) (rb : RegNo)
  /-- DC_INV (R86). Invalidates without writeback at H or F, else acts as DC.CLEANINV. -/
  | dcInv (a : Agent) (rb : RegNo)
  /-- DC_ZERO (R87). Writes zeros to the whole 64-byte line. -/
  | dcZero (a : Agent) (rb : RegNo)
  /-- TLBI (R125). Invalidates translations in the selected scope, optionally broadcast. -/
  | tlbi (a : Agent) (ra rb : RegNo) (scope : BitVec 3) (bcast : Bool)
  /-- RETW (R92). Coxswain return: pc = w15, rotate back to the previous window. -/
  | retw (a : Agent)
  /-- INTERRUPT_ENTRY (R168). At a retire boundary the core takes a deliverable vector, drains retired stores and enters the vector. -/
  | interruptEntry (n : Nat)
  /-- PARTITION_STOP_EXIT (R111). A core running a descriptor set to state 3 exits with reason 0x23 at its next retire boundary, the descriptor going to state 4. -/
  | partitionStopExit (n : Nat)
  /-- WFI_WAKE (R165). An interrupt that would be taken becomes pending and ends a WFI. -/
  | wfiWake (n : Nat)
  /-- C3_ENTRY_COMPLETE (R513). C3 entry completes; a latched interrupt then wakes the core. -/
  | c3EntryComplete (n : Nat)
  /-- C3_WAKE (R513). An interrupt wakes a core from C3, raising its rail first when off, and the core restores state. -/
  | c3Wake (n : Nat)
  /-- TLB_FILL (R116). A page walk completes and the TLB is filled with the translation and the ownership result, or the walk faults. -/
  | tlbFill (n : Nat) (fetch : Bool)
  /-- STORE_WRITE_L1D (R155). A retired store writes the L1D with the line held in ownership and becomes globally visible. -/
  | storeWriteL1d (n : Nat)
  /-- L1D_FILL (R180). The L2 delivers a line to the L1D in four beats, critical chunk first, completing waiting loads and stores. -/
  | l1dFill (n : Nat)
  /-- HELD_LOAD_RELEASE (R163). A load held in guarded mode becomes non-speculative and completes as an ordinary access. -/
  | heldLoadRelease (n : Nat)
  /-- PREFETCH_ISSUE (R183). A prefetcher issues a request when the cache it fills has at least 8 free trackers. -/
  | prefetchIssue (n : Nat) (which : Prefetcher) (line : Nat)
  /-- RDS (R189). A read for a load or fetch reaches the home slice and is served by the directory state table. -/
  | rds (n line key : Nat)
  /-- RDO (R189). A read with ownership reaches the home slice. -/
  | rdo (n line key : Nat)
  /-- UPG (R189). An ownership upgrade without data reaches the home slice. -/
  | upg (n line key : Nat)
  /-- WBK (R196). Dirty eviction data reaches a writeback-receive slot and is applied on arrival. -/
  | wbk (n line : Nat)
  /-- WCLN (R189). Clean-to-DRAM data reaches the home slice; the L2 copy stays clean. -/
  | wcln (n line : Nat)
  /-- EVC (R189). A clean eviction notice removes the requester from the directory. -/
  | evc (n line : Nat)
  /-- RDONCE (R189). A read of current data without any state change reaches the home slice. -/
  | rdonce (src line key : Nat)
  /-- WRLINE (R228). A full-line write reaches the home slice, allocating in the L3 only when alloc is 1. -/
  | wrline (src line key : Nat) (data : Line) (alloc : Bool)
  /-- WRPTL (R189). A partial-line write with byte mask is merged at the home slice and sent as MemWr. -/
  | wrptl (src line key : Nat) (data : Line) (mask : W64)
  /-- BACKGROUND_CLEAN (R203). A cache whose dirty count exceeds 7/8 of its limit cleans lines in the background down to 3/4. -/
  | backgroundClean (c : CacheId)
  /-- SNPS (R194). A snoop asking the L2 to forward data and keep a shared copy. -/
  | snps (n line : Nat)
  /-- SNPIF (R194). A snoop asking the L2 to forward data and invalidate. -/
  | snpif (n line : Nat)
  /-- SNPI (R194). A snoop invalidating a shared copy. -/
  | snpi (n line : Nat)
  /-- SNPONCE (R194). A snoop asking for data without state change. -/
  | snponce (n line : Nat)
  /-- WBP (R198). A snoop response reports that the line has left the L2 and its WBk is in flight. -/
  | wbp (n line : Nat)
  /-- SNPACK (R189). A snoop acknowledgement without data reaches the home. -/
  | snpack (n line : Nat)
  /-- SNPDAT (R196). Snoop data forwarded to the home reaches it. -/
  | snpdat (n line : Nat)
  /-- WBACK (R198). The home acknowledges a WBk and the L2 frees its writeback buffer. -/
  | wback (n line : Nat)
  /-- CMP (R233). A completion without data reaches the requester. -/
  | cmp (stop tid : Nat)
  /-- CMPM (R189). A completion granting M without data reaches the requester. -/
  | cmpm (stop tid : Nat)
  /-- DATS (R189). Line data granted in S reaches the requester. -/
  | dats (stop tid : Nat)
  /-- DATE (R189). Line data granted in E reaches the requester. -/
  | date (stop tid : Nat)
  /-- DATM (R189). Line data granted in M reaches the requester. -/
  | datm (stop tid : Nat)
  /-- DATRD (R64). Line or device data without state reaches the requester. -/
  | datrd (stop tid : Nat)
  /-- RDDEV (R564). A device read of 1 to 8 bytes reaches its target. -/
  | rddev (src stop : Nat) (addr size : Nat)
  /-- MEMRD (R282). A memory read reaches the memory stop and takes a read entry in its class and port. -/
  | memrd (mc line key : Nat) (who : Nat)
  /-- MEMWR (R285). A memory write reaches the memory stop, taking or merging into a write entry. -/
  | memwr (mc line key : Nat) (data : Line) (poison fin : Bool) (who : Nat)
  /-- SHINC (R219). An ownership-shadow increment reaches the memory stop. -/
  | shinc (mc line : Nat)
  /-- SHDEC (R220). An ownership-shadow decrement reaches the memory stop. -/
  | shdec (mc line : Nat)
  /-- L2_TAG_RECOVERY (R209). An L2 tag read fails parity; the set stops serving and a recovery query is broadcast. -/
  | l2TagRecovery (n set : Nat)
  /-- TAGRECOV (R209). A tag-recovery broadcast reaches a home slice, which returns the EM and O lines of that L2 set. -/
  | tagrecov (slice n set : Nat)
  /-- CE_WINDOW_ROLL (R210). An hourly bucket of a way's rolling corrected-error window expires. -/
  | ceWindowRoll (c : CacheId) (way : Nat)
  /-- TC_WAYDIS_WRITE (R213). CX2 sets or clears way-disable bits, disabling or re-enabling ways. -/
  | tcWaydisWrite (r : Req) (tile : Nat) (hi : Bool) (v : W64)
  /-- CCH_MODE_WRITE (R188). CX0 writes quadrant mode or its lock. -/
  | cchModeWrite (r : Req) (v : W64)
  /-- DB_CFG_WRITE (R205). The dirty budgets change; caches above a lowered limit clean at once. -/
  | dbCfgWrite (r : Req) (v : W64)
  /-- REMOTE_GRANT (R217). A grant to the other socket takes a remote-tracker entry, or enters broadcast mode when the tracker is full. -/
  | remoteGrant (mc line : Nat) (excl : Bool)
  /-- SOCKET_SNOOP (R215). A local grant needing a remote copy removed or read snoops the other socket over the Socket Link. -/
  | socketSnoop (mc line : Nat) (excl : Bool)
  /-- EVICTION_REPORT (R216). The other socket reports an eviction; the tracker entry is freed or the untracked count lowered. -/
  | evictionReport (mc line : Nat)
  /-- SAM_ENTRY_WRITE (R39). A write to an interleave region or aperture entry in SV0 is checked and broadcast to every copy. -/
  | samEntryWrite (r : Req) (e : SamReg) (i : Nat) (v : W64)
  /-- SAMUPD (R41). A map-update broadcast reaches an NI, which applies it between packets. -/
  | samupd (stop : Nat)
  /-- RESOURCE_OUT_OF_SERVICE (R47). CX0 or CX2 takes a tile, channel, engine or I/O stop out of service and clears its availability bits. -/
  | resourceOutOfService (r : Req) (x : Resource)
  /-- FLIT_ARRIVE (R238). A flit reaches a router input, is checked by hchk and arbitrated to its output. -/
  | flitArrive (stop : Nat) (inp : PortDir) (f : Flit)
  /-- ISLAND_READY (R254). A waking island reports ready; the port returns to RUN and held flits cross. -/
  | islandReady (stop : Nat)
  /-- CREDIT_RESYNC (R258). A reset island requests resynchronisation; credits are resent and the port returns to RUN. -/
  | creditResync (stop : Nat)
  /-- WATCHDOG_FIRE (R260). A request's crossing watchdog fires; the requester gets status 6 and Fence is sent to the destination. -/
  | watchdogFire (stop tid : Nat)
  /-- FENCE_REQUEST (R260). A Fence request reaches a destination NI, which fences its port and returns FenceMarks. -/
  | fenceRequest (stop src : Nat)
  /-- FENCEMARK (R262). A FenceMark arrives; when all have arrived the aborted tids are freed. -/
  | fencemark (stop src : Nat) (ch : Nat)
  /-- OWN_PORT_STALL (R261). A flit has waited for the NI's own port for the limit; the port is fenced. -/
  | ownPortStall (stop : Nat)
  /-- BROADCAST_TIMEOUT (R252). An acknowledged broadcast's watchdog fires with acknowledgements missing; it completes and missing stops are fenced. -/
  | broadcastTimeout (stop : Nat) (b : BcastKind)
  /-- BCACK (R252). A broadcast acknowledgement reaches the source; the broadcast completes when all have arrived. -/
  | bcack (stop src : Nat) (b : BcastKind)
  /-- NI_RT_WRITE (R244). A route-table write is checked and applied, or rejected with NI_RT_STATUS. -/
  | niRtWrite (r : Req) (stop d : Nat) (v : W64)
  /-- PRB_CTL_WRITE (R269). A write of PRB_CTL configures the probe and resets wptr and full. -/
  | prbCtlWrite (r : Req) (stop : Nat) (v : W64)
  /-- REGRD (R32). A register read request reaches its target window and is answered with RegCmp. -/
  | regrd (r : Req) (addr : Nat) (tid : Nat)
  /-- REGWR (R32). A register write request reaches its target window. -/
  | regwr (r : Req) (addr : Nat) (v : W64) (be : Byte) (tid : Nat)
  /-- REGCMP (R233). A register completion reaches the requester. -/
  | regcmp (stop tid : Nat)
  /-- INTR (R579). An interrupt delivery sets a vector's pending bit, or is held, merged or discarded. -/
  | intr (src : Nat) (n : Nat) (c : Controller) (vec : Nat)
  /-- TLBI_BROADCAST (R127). A TLBI broadcast reaches a core, or a translation unit for IOTU_INV, which removes entries and acknowledges. -/
  | tlbiBroadcast (u : XlUnit) (src : Nat)
  /-- POTINV (R120). A POT invalidation broadcast reaches a core or translation unit, which removes entries for the page. -/
  | potinv (u : XlUnit)
  /-- POT_INV_WRITE (R120). CX0 writes POT_INV, starting removal of entries covering a page. -/
  | potInvWrite (r : Req) (v : W64)
  /-- POT_INV_COMPLETE (R120). Every unit has removed the entries and accesses under them have completed; busy clears. -/
  | potInvComplete
  /-- DRAM_COMMAND_ISSUE (R287). In a command slot the subchannel selects and issues refresh, DRFM or a request's next command. -/
  | dramCommandIssue (mc sub : Nat) (mustRef : Bool) (blocked : List Nat)
  /-- REFRESH_DUE (R287). A refresh becomes due under the DDR5 refresh interval. -/
  | refreshDue (mc sub : Nat)
  /-- RH_WINDOW_CLEAR (R292). A 32 ms refresh-window boundary clears every activation table. -/
  | rhWindowClear (mc : Nat)
  /-- URGENCY_PROMOTION (R290). A queued request's age crosses 0.5 T, 0.75 T or T and its urgency rises. -/
  | urgencyPromotion (mc sub : Nat) (i : Nat) (ageNs : Nat)
  /-- DRAM_READ_COMPLETE (R297). DRAM read data returns, is checked, re-read or corrected, decrypted and sent. -/
  | dramReadComplete (mc sub : Nat) (o : EccOutcome)
  /-- SPARING_COPY_END (R303). A sparing copy ends and every access is served from the spare. -/
  | sparingCopyEnd (mc rank sub : Nat)
  /-- ALERT_N (R299). ALERT_n reports a CA parity or write CRC error; commands are replayed up to 4 times. -/
  | alertN (mc : Nat) (fails : Nat)
  /-- PATROL_READ (R301). The patrol scrubber reads the next line of the channel and corrects or compares it. -/
  | patrolRead (mc : Nat) (o partner : EccOutcome)
  /-- SOFT_PPR (R304). CX2 commands soft post-package repair of a row; traffic to the bank is held until it ends. -/
  | softPpr (mc rank bank row : Nat)
  /-- KEY_QUERY (R314). KEY_CMD op 0 returns a slot's state. -/
  | keyQuery (r : Req) (slot : Nat)
  /-- KEY_LOAD (R314). KEY_CMD op 1 loads a slot from KEY_DATA in every memory stop, or is refused. -/
  | keyLoad (r : Req) (slot : Nat)
  /-- KEY_ERASE (R314). KEY_CMD op 2 erases one slot in every memory stop. -/
  | keyErase (r : Req) (slot : Nat)
  /-- KEY_ERASE_ALL (R315). KEY_CMD op 3 erases every slot and sets KEY_EPOCH.erased. -/
  | keyEraseAll (r : Req)
  /-- KEY_COMMAND_COMPLETE (R317). A key command completes in every stop; busy clears and KEY_DATA is zeroed. -/
  | keyCommandComplete
  /-- KEY_STATUS_CLEAR (R312). A write of 1 to KEY_STATUS.clr clears the dropped and poisoned counts. -/
  | keyStatusClear (r : Req)
  /-- SWQ_ENABLE (R340). A write of 1 to enable checks the binding, initialises the pool and starts the queue. -/
  | swqEnable (r : Req) (q : Nat)
  /-- SWQ_DISABLE (R346). A write of 0 to enable stops the queue accepting jobs. -/
  | swqDisable (r : Req) (q : Nat)
  /-- SWQ_RESET (R345). A queue reset aborts jobs, drops descriptors, frees the pool with new generations and clears enable. -/
  | swqReset (r : Req) (q : Nat)
  /-- SWQ_DB (R348). A doorbell write makes the home engine read the QCB within 1 µs. -/
  | swqDb (q : Nat)
  /-- QCB_POLL (R348). The poll interval of an enabled queue expires and the QCB is read. -/
  | qcbPoll (q : Nat)
  /-- QCB_READ_RETURN (R348). The QCB line arrives; descriptors and handles are taken and head indices written. -/
  | qcbReadReturn (q : Nat) (status : Nat)
  /-- SWQ_RELDB (R366). A handle is released through the doorbell page, checked against owner and generation. -/
  | swqReldb (q : Nat) (handle : W64)
  /-- JOB_START (R353). An engine starts the oldest job of the queue chosen by rotating priority. -/
  | jobStart (e : Nat)
  /-- SWEEP_UNIT (R321). An engine processes its next unit: checks blocks, computes, allocates and publishes output. -/
  | sweepUnit (e : Nat)
  /-- JOB_RESUME (R356). A release or a larger res_head resumes a suspended job. -/
  | jobResume (e : Nat)
  /-- SUSPENSION_TIMEOUT (R357). A job suspended for susp_ms ends with OUTPUT_STALL. -/
  | suspensionTimeout (e q : Nat)
  /-- SWEEP_ERROR_REPORT (R331). An engine's error report reaches the home engine, which stops the rest of the group. -/
  | sweepErrorReport (e q : Nat)
  /-- JOB_END (R360). Every engine of the group has ended its share; the record state becomes 4 or 5. -/
  | jobEnd (q : Nat)
  /-- SW_STOP (R370). Clearing SW_CTL.run puts the engine into stopping. -/
  | swStop (r : Req) (e : Nat)
  /-- SW_RUN (R371). Setting SW_CTL.run restarts a stopped engine or latches restart. -/
  | swRun (r : Req) (e : Nat)
  /-- ENGINE_STOP_COMPLETE (R370). Every job has reached a unit boundary and the engine enters stopped. -/
  | engineStopComplete (e : Nat)
  /-- SWU_LOAD (R395). SWU_CMD op 1 starts a microcode module load. -/
  | swuLoad (r : Req) (waitMs : BitVec 10)
  /-- SWU_UNLOAD (R396). SWU_CMD op 2 holds customer jobs and invalidates the module. -/
  | swuUnload (r : Req) (waitMs : BitVec 10)
  /-- SWU_MODULE_CHECKED (R394). The module has been read and checked; the hold on customer jobs begins or err is set. -/
  | swuModuleChecked
  /-- SWU_HOLD_REACHED (R395). No customer job runs; the region is written in every engine and busy clears. -/
  | swuHoldReached
  /-- SWU_HOLD_TIMEOUT (R394). wait_ms expires before the hold; the load ends with err 8. -/
  | swuHoldTimeout
  /-- UCODE_NOP (R379). Microcode no-operation. -/
  | ucodeNop (e : Nat) (cl : BitVec 2)
  /-- UCODE_ADD (R379). Scalar add. -/
  | ucodeAdd (e : Nat) (cl : BitVec 2) (d a b : BitVec 4)
  /-- UCODE_SUB (R379). Scalar subtract. -/
  | ucodeSub (e : Nat) (cl : BitVec 2) (d a b : BitVec 4)
  /-- UCODE_AND (R379). Scalar AND. -/
  | ucodeAnd (e : Nat) (cl : BitVec 2) (d a b : BitVec 4)
  /-- UCODE_OR (R379). Scalar OR. -/
  | ucodeOr (e : Nat) (cl : BitVec 2) (d a b : BitVec 4)
  /-- UCODE_XOR (R379). Scalar XOR. -/
  | ucodeXor (e : Nat) (cl : BitVec 2) (d a b : BitVec 4)
  /-- UCODE_SHL (R379). Scalar shift left. -/
  | ucodeShl (e : Nat) (cl : BitVec 2) (d a b : BitVec 4)
  /-- UCODE_SHR (R379). Scalar logical shift right. -/
  | ucodeShr (e : Nat) (cl : BitVec 2) (d a b : BitVec 4)
  /-- UCODE_SAR (R379). Scalar arithmetic shift right. -/
  | ucodeSar (e : Nat) (cl : BitVec 2) (d a b : BitVec 4)
  /-- UCODE_ADDI (R379). Scalar add immediate. -/
  | ucodeAddi (e : Nat) (cl : BitVec 2) (d a : BitVec 4) (imm : BitVec 16)
  /-- UCODE_MOVK (R379). Writes a 16-bit field of a scalar register. -/
  | ucodeMovk (e : Nat) (cl : BitVec 2) (d : BitVec 4) (k : BitVec 2) (imm : BitVec 16)
  /-- UCODE_CMP (R377). Compares two scalars into c0 to c2. -/
  | ucodeCmp (e : Nat) (cl : BitVec 2) (a b : BitVec 4)
  /-- UCODE_CMPI (R377). Compares a scalar with an immediate into c0 to c2. -/
  | ucodeCmpi (e : Nat) (cl : BitVec 2) (a : BitVec 4) (imm : BitVec 16)
  /-- UCODE_PARAM (R379). Reads a descriptor parameter into a scalar register. -/
  | ucodeParam (e : Nat) (cl : BitVec 2) (d : BitVec 4) (p : BitVec 16)
  /-- UCODE_MUL (R379). Scalar multiply. -/
  | ucodeMul (e : Nat) (cl : BitVec 2) (d a b : BitVec 4)
  /-- XADD (R379). Lane-wise add. -/
  | xadd (e : Nat) (cl : BitVec 2) (xd xa xb : BitVec 3)
  /-- XSUB (R379). Lane-wise subtract. -/
  | xsub (e : Nat) (cl : BitVec 2) (xd xa xb : BitVec 3)
  /-- XAND (R379). Lane-wise AND. -/
  | xand (e : Nat) (cl : BitVec 2) (xd xa xb : BitVec 3)
  /-- XIOR (R379). Lane-wise inclusive OR. -/
  | xior (e : Nat) (cl : BitVec 2) (xd xa xb : BitVec 3)
  /-- XXOR (R379). Lane-wise exclusive OR. -/
  | xxor (e : Nat) (cl : BitVec 2) (xd xa xb : BitVec 3)
  /-- XSHRI (R379). Lane-wise logical shift right by immediate. -/
  | xshri (e : Nat) (cl : BitVec 2) (xd xa : BitVec 3) (imm : BitVec 6)
  /-- XSHLI (R379). Lane-wise shift left by immediate. -/
  | xshli (e : Nat) (cl : BitVec 2) (xd xa : BitVec 3) (imm : BitVec 6)
  /-- XMUL (R379). Lane-wise multiply. -/
  | xmul (e : Nat) (cl : BitVec 2) (xd xa xb : BitVec 3)
  /-- XCMP (R377). Lane-wise compare into a mask, setting c4 and c5. -/
  | xcmp (e : Nat) (cl : BitVec 2) (md xa xb ma cond : BitVec 3)
  /-- MOP (R377). Mask logical operation, setting c4 and c5. -/
  | mop (e : Nat) (cl : BitVec 2) (md ma mb : BitVec 3) (op : BitVec 2)
  /-- XSEL (R379). Lane-wise select by mask. -/
  | xsel (e : Nat) (cl : BitVec 2) (xd xa xb ma : BitVec 3)
  /-- XBCAST (R379). Broadcasts a scalar into every lane. -/
  | xbcast (e : Nat) (cl : BitVec 2) (xd : BitVec 3) (s : BitVec 4)
  /-- XEXT (R379). Extracts one lane into a scalar. -/
  | xext (e : Nat) (cl : BitVec 2) (s : BitVec 4) (xa lane : BitVec 3)
  /-- XCRC (R379). Lane-wise CRC-32C of 8 bytes. -/
  | xcrc (e : Nat) (cl : BitVec 2) (xd xa : BitVec 3)
  /-- XGATH (R405). Gathers 8-byte values from the operator allocation, faulting outside it. -/
  | xgath (e : Nat) (cl : BitVec 2) (xd xa ma : BitVec 3) (s : BitVec 4)
  /-- UCODE_IN (R377). Reads the next group of a column, setting m7 and c6. -/
  | ucodeIn (e : Nat) (cl : BitVec 2) (xd : BitVec 3) (col : BitVec 2)
  /-- SEL (R403). Selects rows of the last group for output. -/
  | sel (e : Nat) (cl : BitVec 2) (ma : BitVec 3)
  /-- PUTV (R403). Appends masked lanes as 8-byte output values. -/
  | putv (e : Nat) (cl : BitVec 2) (xa ma : BitVec 3)
  /-- UCODE_LDS (R405). Loads 64 bytes from the operator allocation. -/
  | ucodeLds (e : Nat) (cl : BitVec 2) (x : BitVec 3) (s : BitVec 4) (imm : BitVec 15)
  /-- UCODE_STS (R405). Stores 64 bytes into the operator allocation. -/
  | ucodeSts (e : Nat) (cl : BitVec 2) (x : BitVec 3) (s : BitVec 4) (imm : BitVec 15)
  /-- UCODE_BR (R382). Conditional branch with one delay slot, optionally annulled. -/
  | ucodeBr (e : Nat) (cl : BitVec 2) (sense annul : Bool) (cbit : BitVec 4) (target : BitVec 14)
  /-- UCODE_CALL (R385). Pushes the link stack and branches, faulting UC_STACK on overflow. -/
  | ucodeCall (e : Nat) (cl : BitVec 2) (target : BitVec 14)
  /-- UCODE_RET (R385). Pops the link stack and branches. -/
  | ucodeRet (e : Nat) (cl : BitVec 2)
  /-- UCODE_DONE (R402). Ends the routine; for a kind 0 body the selection is applied. -/
  | ucodeDone (e : Nat) (cl : BitVec 2)
  /-- UCODE_FAULT (R379). Ends the job with a user error code 0x28 to 0x2F. -/
  | ucodeFault (e : Nat) (cl : BitVec 2) (n : Byte)
  /-- LOADA (R390). Service 0 copies bytes from descriptor a plus offset into the operator allocation. -/
  | loada (e : Nat) (cl : BitVec 2)
  /-- LOADB (R390). Service 1 copies bytes from descriptor b plus offset into the allocation. -/
  | loadb (e : Nat) (cl : BitVec 2)
  /-- ROWINFO (R390). Service 2 returns the row ID of lane 0 and the rows in the unit. -/
  | rowinfo (e : Nat) (cl : BitVec 2)
  /-- FLUSH (R390). Service 3 publishes the engine's partly filled buffers of the job. -/
  | flush (e : Nat) (cl : BitVec 2)
  /-- ZERO (R390). Service 4 zeroes bytes of the allocation. -/
  | zero (e : Nat) (cl : BitVec 2)
  /-- SCRCRC (R390). Service 5 computes CRC-32C over allocation bytes. -/
  | scrcrc (e : Nat) (cl : BitVec 2)
  /-- SORT (R390). Service 6 sorts values of the allocation ascending. -/
  | sort (e : Nat) (cl : BitVec 2)
  /-- UNIT_BUDGET_EXPIRY (R405). A unit exceeds unit_kcycles × 1,024 cycles and the job ends with UC_BUDGET. -/
  | unitBudgetExpiry (e : Nat)
  /-- CXS_CTL_RESET (R412). A write of 1 to CXS_CTL.reset resets a pair, keeping its TCM. -/
  | cxsCtlReset (r : Req) (k : Nat)
  /-- CXS_CTL_HOLD (R409). Writing hold keeps a pair in reset or releases it to start under R410. -/
  | cxsCtlHold (r : Req) (k : Nat) (hold : Bool)
  /-- CX_INTERRUPT_ENTRY (R426). At a sampling edge a pair takes an enabled input above its level and enters its handler in exactly 12 cycles. -/
  | cxInterruptEntry (k : Nat)
  /-- SPILL (R420). The spill engine writes the oldest resident frame to the spill area. -/
  | spill (k : Nat)
  /-- CX_DIVIDE_COMPLETE (R418). The pair's divider writes its result 34 cycles after issue. -/
  | cxDivideComplete (k : Nat)
  /-- CX_CACHE_REFILL (R437). A missed line arrives and is written into the pair's cache in four beats. -/
  | cxCacheRefill (k : Nat) (icache : Bool)
  /-- REACH_READ (R439). CX_RCH_CMD op 1 starts a device or register read through a reach slot. -/
  | reachRead (k slot : Nat) (v : W32)
  /-- REACH_WRITE (R439). CX_RCH_CMD op 2 starts a device or register write through a reach slot. -/
  | reachWrite (k slot : Nat) (v : W32)
  /-- REACH_COMPLETE (R440). A reach slot's response or abort arrives; busy clears and input 63 may be raised. -/
  | reachComplete (k slot : Nat) (status : BitVec 3) (data : W64)
  /-- LOCKSTEP_MISMATCH (R443). The comparator finds a difference in used outputs; the pair freezes and it is reported. -/
  | lockstepMismatch (k : Nat)
  /-- PAIR_FAULT_REPORT (R444). The receiving pair logs a halt or mismatch and resets or holds the faulty pair. -/
  | pairFaultReport (k : Nat) (halt : Bool)
  /-- PV_VALIDATE (R446). PV_REQ op 1: CX0 checks a candidate descriptor and copies it into a protected page. -/
  | pvValidate (r : Req) (addr : Nat)
  /-- PV_STOP (R447). PV_REQ op 2 sets a running descriptor to state 3 or a validated one to state 4. -/
  | pvStop (r : Req) (addr : Nat)
  /-- PV_RETIRE (R447). PV_REQ op 3 zeroes the save area, returns its page to state 0 and clears the descriptor. -/
  | pvRetire (r : Req) (addr : Nat)
  /-- CX3_LOAD (R450). CX3L_CMD op 1 holds CX3, copies and checks an image and releases it. -/
  | cx3Load (r : Req)
  /-- CX3_MBDB_IN (R451). Level H or F sets the inbound mailbox doorbell, raising CX3 input 62. -/
  | cx3MbdbIn (r : Req)
  /-- CX3_MBDB_OUT (R451). CX3 sets the outbound mailbox doorbell, raising the mailbox interrupt to the cores. -/
  | cx3MbdbOut (r : Req)
  /-- PWRFAIL_N_FALL (R458). PWRFAIL_N falls and the always-on filter starts timing. -/
  | pwrfailNFall
  /-- PWRFAIL_N_RISE (R458). PWRFAIL_N rises; the filter restarts. -/
  | pwrfailNRise
  /-- FINISH_TRIGGER (R459). The filter passes; the trigger is synchronised and Finish is sent on the reserved lane. -/
  | finishTrigger
  /-- FIN_FORCE (R460). A write of 1 to FIN_CFG.force starts Finish as if the filter had passed. -/
  | finForce (r : Req)
  /-- FINISH_MESSAGE (R465). The Finish level reaches an island, which stops cores, abandons jobs and starts its flush. -/
  | finishMessage (stop : Nat)
  /-- FLUSH_COMPLETE (R465). Step 3 has ended in every stop: all lines are written and queues drained. -/
  | flushComplete
  /-- FINISH_COPY_COMPLETE (R479). Every range has been copied or ended incomplete. -/
  | finishCopyComplete
  /-- FIN_CX3_DONE (R470). CX3 writes FIN_CX3.done, closing its Finish window. -/
  | finCx3Done (r : Req)
  /-- CX3_WINDOW_EXPIRY (R470). cx3_us elapses after the broadcast and CX3's window closes. -/
  | cx3WindowExpiry
  /-- FINISH_RECORD (R481). CX1 holds CX3 in reset and writes the Finish record with its tag. -/
  | finishRecord
  /-- CATCH_START (R463). PWRFAIL_N has been high for the filter time with FINISH_DONE high; Catch begins. -/
  | catchStart (lost : BitVec 16) (powerLost : Bool)
  /-- CATCH_RELEASE (R492). FINISH_DONE falls and every in-service core starts at FIN_RESUME.pc with the result in g2. -/
  | catchRelease
  /-- POWER_GOOD_LOSS (R500). A live domain's power-good input falls; Finish, row loss or link loss follows. -/
  | powerGoodLoss (d : Nat)
  /-- PWR_DOM_CTL_WRITE (R501). A write switches a core rail or the SerDes analogue domain, or is refused with err. -/
  | pwrDomCtlWrite (r : Req) (v : W64)
  /-- GRANT_UPDATE (R507). Every 1 ms CX1 raises or lowers each tile's frequency grant. -/
  | grantUpdate (measuredW : Nat) (room : Nat)
  /-- THERMAL_SAMPLE (R509). Every 100 µs each sensor is read; throttle, clock halving or thermal trip follows. -/
  | thermalSample (stop : Nat) (c : Nat)
  /-- PACKAGE_IDLE_ENTRY (R514). The idle conditions have held for idle_us; DRAM powers down and the fabric rail drops. -/
  | packageIdleEntry
  /-- PACKAGE_IDLE_EXIT (R514). An idle condition ends and the package returns to run. -/
  | packageIdleExit
  /-- PKG_REQ_SLEEP (R515). PWR_PKG_REQ target 2 arms a sleep request or fills the pending slot. -/
  | pkgReqSleep (r : Req)
  /-- PKG_REQ_RUN (R516). PWR_PKG_REQ target 1 disarms a sleep request or fills the pending slot. -/
  | pkgReqRun (r : Req)
  /-- SLEEP_ENTRY_START (R515). Every in-service core is in C3; sleep entry stops engines, idles links and enters self-refresh. -/
  | sleepEntryStart
  /-- SLEEP_ENTRY_COMPLETE (R519). Core rails are off; the pending slot runs if it differs. -/
  | sleepEntryComplete
  /-- PACKAGE_WAKE (R517). A wake source ends package sleep and the rails and DRAM come up. -/
  | packageWake (code : BitVec 4) (detail : Byte)
  /-- PACKAGE_RUN_REACHED (R517). Leaving sleep completes and the package is in run. -/
  | packageRunReached
  /-- SELF_REFRESH_RETURN (R518). 10 µs with no pair request returns a channel to self-refresh during sleep. -/
  | selfRefreshReturn (mc : Nat)
  /-- AO_TIMER_WRITE (R522). CX1 arms the always-on timer; writes from others are refused. -/
  | aoTimerWrite (r : Req) (v : W64)
  /-- AO_TIMER_EXPIRY (R522). The always-on timer reaches 0, raising a CX1 interrupt and a wake of code 2. -/
  | aoTimerExpiry
  /-- GPIO_WAKE (R523). A rising edge on an enabled GPIO pin is a wake of code 1. -/
  | gpioWake (pin : Nat)
  /-- LINK_WAKE (R517). A link partner leaves L1 or drives WAKE_N, a wake of code 4. -/
  | linkWake (io : Nat)
  /-- PWR_RST_WARM (R529). PWR_RST op 1 performs a Warm reset. -/
  | pwrRstWarm (r : Req)
  /-- PWR_RST_COLD (R529). PWR_RST op 2 turns off every domain and performs a Cold power-on. -/
  | pwrRstCold (r : Req)
  /-- TILE_RESET (R530). TC_RST reset stops both cores, writes back their lines and waits for outstanding requests. -/
  | tileReset (r : Req) (tile : Nat)
  /-- TILE_RESET_COMPLETE (R530). Every outstanding request has completed and the cores are reset and held. -/
  | tileResetComplete (tile : Nat)
  /-- TILE_RELEASE (R532). TC_RST release starts the held cores at the boot entry. -/
  | tileRelease (r : Req) (tile : Nat)
  /-- IO_CFG_WRITE (R534). CX0 sets a stop's personality and bifurcation, or the write is ignored and logged. -/
  | ioCfgWrite (r : Req) (io : Nat) (v : W64)
  /-- IO_RST_RESET (R537). IO_RST reset resets the I/O island and takes its links down. -/
  | ioRstReset (r : Req) (io : Nat)
  /-- LINK_UP (R533). A link trains to L0 at a rate and width, as PCIe or CXL. -/
  | linkUp (io link : Nat) (rate : BitVec 3) (width : BitVec 4) (cxl flit : Bool)
  /-- LINK_DOWN (R535). A link goes down; its non-posted requests get status 4 and queued writes are discarded. -/
  | linkDown (io link : Nat)
  /-- SOCKET_LINK_TRAINED (R569). A Socket Link agrees version and features, or trains non-coherent. -/
  | socketLinkTrained (io : Nat) (pLo pHi : Byte) (pFeat : BitVec 4)
  /-- PERST_N_INPUT (R685). An endpoint PERST_N input changes; while low the stop is in reset and functions in FLR. -/
  | perstNInput (io : Nat) (high : Bool)
  /-- INBOUND_POSTED_WRITE (R562). An inbound posted write TLP is translated by the IOTU and sent into the fabric in order. -/
  | inboundPostedWrite (io : Nat) (t : Tlp) (data : List Byte)
  /-- INBOUND_READ_REQUEST (R541). An inbound non-posted read TLP is translated and performed, completing to the device. -/
  | inboundReadRequest (io : Nat) (t : Tlp)
  /-- INBOUND_ATOMIC (R538). An inbound atomic operation is performed as ATOM in normal memory, or gets UR. -/
  | inboundAtomic (io : Nat) (t : Tlp) (op : AtomOp) (operand compare : BitVec 128)
  /-- INTERRUPT_MESSAGE (R544). An inbound 4-byte write to IOTU_MSI.base is remapped and delivered to a core. -/
  | interruptMessage (io : Nat) (t : Tlp) (data : W32)
  /-- COMPLETION_RECEIVED (R562). A completion TLP arrives for an outstanding tag and is returned to the requester. -/
  | completionReceived (io tag : Nat) (status : CplStatus) (data : List Byte)
  /-- COMPLETION_TIMEOUT (R567). A non-posted request's cto_eff expires; the requester gets status 4 and the tag is held. -/
  | completionTimeout (io tag : Nat)
  /-- TAG_HOLD_EXPIRY (R567). A held tag's 4 × replay_us expires and the tag is free again. -/
  | tagHoldExpiry (io tag : Nat)
  /-- IOTU_INV_WRITE (R546). A write starts an invalidation in every IOTU and Sweep translation unit. -/
  | iotuInvWrite (r : Req) (v : W64)
  /-- IOTU_INV_COMPLETE (R546). Every unit has removed the entries and accesses under them completed; busy clears. -/
  | iotuInvComplete
  /-- EP_ACTIVE_CHANGE (R549). A change of EP_CTL.active switches the endpoint link, or is refused while functions are enabled. -/
  | epActiveChange (r : Req) (act : Bool)
  /-- EP_VF_WRITE (R553). Level H or F maps a VF's queue, interrupt and mailbox, refused while Memory Space Enable is 1. -/
  | epVfWrite (r : Req) (vf : Nat) (word1 : Bool) (v : W64)
  /-- VF_DOORBELL_WRITE (R551). A host write to VF page 0 is forwarded to the doorbell page of the VF's queue. -/
  | vfDoorbellWrite (vf : Nat) (off : BitVec 12) (v : W64)
  /-- MAILBOX_SLOT_WRITE (R552). A host write to an inbound slot is forwarded into the VF's mailbox ring. -/
  | mailboxSlotWrite (vf : Nat) (off : BitVec 12) (data : List Byte)
  /-- MB_DB_WRITE (R552). A host write to MB_DB sets an inbound-pending bit and raises the mailbox interrupt. -/
  | mbDbWrite (vf : Nat) (v : W64)
  /-- MB_PEND_READ (R552). A host read of MB_PEND returns and clears the outbound-pending bitmap. -/
  | mbPendRead (vf : Nat)
  /-- EP_RTAIL_WRITE (R554). A write of a ring's tail starts its service. -/
  | epRtailWrite (r : Req) (io ring : Nat) (v : W64)
  /-- RING_DESCRIPTOR (R554). The endpoint performs a ring descriptor in full and advances head, or stops the ring. -/
  | ringDescriptor (io ring : Nat) (h : HostReply)
  /-- EP_MBOX_SEND (R557). A write of EP_MBOX raises VF vector 0 and sets outbound-pending bits. -/
  | epMboxSend (r : Req) (io vf : Nat) (v : W64)
  /-- EP_SEND (R557). Level H or F raises any vector of any function. -/
  | epSend (r : Req) (io : Nat) (v : W64)
  /-- MSIX_UNMASK (R556). Unmasking a vector or function sends a pending message once and clears its bit. -/
  | msixUnmask (fn : Nat) (vec : Option Nat)
  /-- BME_CLEAR (R558). The host clears Bus Master Enable; new upstream requests are refused and rings stop. -/
  | bmeClear (fn : Nat)
  /-- BME_SET (R558). The host sets Bus Master Enable again; held MSI-X messages are sent. -/
  | bmeSet (fn : Nat)
  /-- FLR_VF (R559). A function-level reset of a VF stops its rings and waits for outstanding reads. -/
  | flrVf (fn : Nat)
  /-- FLR_PF (R560). A function-level reset of the PF resets every function and clears VF Enable. -/
  | flrPf
  /-- FLR_COMPLETE (R559). A function reset completes: state restored, EP_FLR_PEND set, interrupt raised to H. -/
  | flrComplete (fn : Nat)
  /-- X_VSEND (R580). An MTS to X_VSEND sends an Intr to a target core's selected controller. -/
  | xVsend (n : Nat) (lvlH : Bool) (v : W64)
  /-- CORE_DOORBELL_WRITE (R583). A 4-byte write to a core's doorbell page delivers a vector to a controller. -/
  | coreDoorbellWrite (r : Req) (n : Nat) (c : Controller) (off size : Nat) (v : W32)
  /-- H_VHELDP_MOVE (R581). A write of move sends a held entry's vectors to another core and frees the entry. -/
  | hVheldpMove (n : Nat) (entry : Nat) (v : W64)
  /-- ERROR_RECORD (R594). An error reaches a bank and is merged, placed, replaces a lower class, or is lost. -/
  | errorRecord (b : BankId) (e : ErrRec)
  /-- ERR_INJ_ARM (R603). A write arms an error injection for the next access of the chosen kind. -/
  | errInjArm (r : Req) (b : BankId) (v : W64)
  /-- RAS_RECORD_SERVICE (R600). CX2 reads a signalled record, counts it, logs it and applies thresholds. -/
  | rasRecordService (b : BankId) (slot : Nat)
  /-- CORRECTED_LOG_FLUSH (R602). Once per second CX2 writes gathered corrected records to the flash log. -/
  | correctedLogFlush
  /-- SECURITY_ALARM (R608). An alarm source fires; ALARM_N falls and erase, advance, irq and reset act in order. -/
  | securityAlarm (sources : Byte)
  /-- ALARM_MESSAGE (R315). A reserved-lane alarm message reaches a memory stop, which erases every key slot. -/
  | alarmMessage (mc : Nat)
  /-- DEBUG_TOKEN_SUBMIT (R611). SEC_DBG_CMD submits a token; CX0 checks it, sets the sealed enables or fires source 4. -/
  | debugTokenSubmit (r : Req)
  /-- TRNG_OUT_READ (R616). A permitted read of TRNG_OUT takes a new value, or is refused with status 4. -/
  | trngOutRead (r : Req)
  /-- TRNG_HEALTH_FAILURE (R618). A health test fails; output stops, waiting reads get status 4, and a third failure in 1 s fires source 7. -/
  | trngHealthFailure (rct : Bool)
  /-- TRNG_RECOVERY_COMPLETE (R618). The start-up test passes and the DRBG is reseeded; output resumes. -/
  | trngRecoveryComplete
  /-- DRBG_RESEED (R615). The DRBG reseeds at 65,536 generate calls or 10 ms. -/
  | drbgReseed
  /-- BOOT_START (R622). CX0 leaves reset, reads the JESD216 tables and reads and checks both copies. -/
  | bootStart
  /-- BOOT_COMMIT (R628). The selected copy has passed; CX0 commits and begins applying records. -/
  | bootCommit
  /-- CORE_RELEASE (R632). At the end of a Cold or Warm boot every in-service core starts at the boot entry. -/
  | coreRelease
  /-- BOOT_RCV_DATA (R636). The debug port appends 8 bytes to the recovery page buffer. -/
  | bootRcvData (r : Req) (v : W64)
  /-- BOOT_RCV_ERASE (R636). Recovery op 1 erases a 64 KiB flash sector inside copies A or B. -/
  | bootRcvErase (r : Req)
  /-- BOOT_RCV_PROGRAM (R636). Recovery op 2 programs the 256-byte buffer and empties it. -/
  | bootRcvProgram (r : Req)
  /-- BOOT_RCV_COLD_RESET (R636). Recovery op 3 starts a Cold reset. -/
  | bootRcvColdReset (r : Req)
  /-- MUX_FN_WRITE (R638). A write enables a function on pins, refused on conflict, or frees its pins. -/
  | muxFnWrite (r : Req) (f : Nat) (v : W64)
  /-- PIN_SWITCH_COMPLETE (R639). Two always-on clocks after a driver change, the pin takes its new function. -/
  | pinSwitchComplete (pin : Nat)
  /-- COUNTER_OVERFLOW (R649). An Erg counter wraps; the overflow bit sets, a vector may be delivered and lfrz may set. -/
  | counterOverflow (u : ErgUnit) (c : Nat)
  /-- SAMPLE_RING_WRITE (R658). A buffered sample record is written to the DRAM ring when room exists. -/
  | sampleRingWrite (n : Nat)
  /-- SAMPLE_RECORD_READ (R657). A read of X_ERGSMPREC7 removes the oldest buffered record. -/
  | sampleRecordRead (n : Nat) (rd : RegNo)
  /-- ERG_FREEZE (R664). ERG_GCTL op 1 sends a freeze message. -/
  | ergFreeze (r : Req)
  /-- ERG_RELEASE (R664). ERG_GCTL op 2 sends a release message. -/
  | ergRelease (r : Req)
  /-- ERG_SNAPSHOT (R664). ERG_GCTL op 3 sends a snapshot with the next tag. -/
  | ergSnapshot (r : Req)
  /-- FREEZE_MESSAGE (R665). A freeze message reaches an island, which sets gfrz and stops counting. -/
  | freezeMessage (stop : Nat)
  /-- RELEASE_MESSAGE (R665). A release message reaches an island, which clears gfrz. -/
  | releaseMessage (stop : Nat)
  /-- SNAPSHOT_MESSAGE (R666). A snapshot message reaches an island, which copies counters to shadows with the tag. -/
  | snapshotMessage (stop : Nat) (tag : BitVec 4)
  /-- DEBUG_REGRD (R687). A debug-port RegRd frame is checked and answered with data and status. -/
  | debugRegrd (f : List Byte)
  /-- DEBUG_REGWR (R687). A debug-port RegWr frame is checked and performed. -/
  | debugRegwr (f : List Byte)
  /-- JTAG_BYPASS (R686). The boundary-scan BYPASS instruction. -/
  | jtagBypass
  /-- JTAG_SAMPLE_PRELOAD (R686). The boundary-scan SAMPLE/PRELOAD instruction. -/
  | jtagSamplePreload
  /-- JTAG_EXTEST (R686). The boundary-scan EXTEST instruction, until the first core release. -/
  | jtagExtest
  /-- JTAG_CLAMP (R686). The boundary-scan CLAMP instruction. -/
  | jtagClamp
  /-- JTAG_HIGHZ (R686). The boundary-scan HIGHZ instruction. -/
  | jtagHighz
  /-- TEST_LOGIC_RESET (R686). The TAP enters Test-Logic-Reset and selects BYPASS. -/
  | testLogicReset
  /-- HOLDUP_OK_CHANGE (R457). The HOLDUP_OK input changes level; FIN_STATUS.holdup follows it and the 10 ms high-time condition of R457 starts or is lost. -/
  | holdupOkChange (high : Bool)
  /-- REFCLK_RETURN (R505). REFCLK is present and locked again, and the always-on clock is derived from it once more instead of the on-die oscillator. -/
  | refclkReturn
  /-- SUPPLIES_REMOVED (R510). The board removes the supplies, always-on included, and the package enters the Off state. -/
  | suppliesRemoved
  /-- FINISH_FORWARDING (R569). A Finish started on the other part arrives over a Socket Link with Finish forwarding common and starts Finish here as under R460. -/
  | finishForwarding (io : Nat)
  /-- FREEZE_AND_SNAPSHOT_FORWARDING (R669). A freeze, release or snapshot forwarded from the other part reaches SV0, which sends it on the reserved lane as its own. -/
  | freezeAndSnapshotForwarding (kind : BitVec 4) (tag : BitVec 4)
  /-- DEBUG_HALT_REQUEST (R130). The debug port requests a halt of a core, taken at once when Table 03-24 permits or held until the next partition exit. -/
  | debugHaltRequest (n : Nat)
  /-- PERST_N_DRIVEN_HIGH (R685). With IO_CFG applied and the stop out of reset, 100 ms after the SerDes domains became ready, the part drives IOnn_PERST_N[k] high. -/
  | perstNDrivenHigh (io link : Nat)
  /-- ERG_GCTL_BUSY_END (R664). 100 ns after an ERG_GCTL message, busy clears and a write that was waiting for it is performed. -/
  | ergGctlBusyEnd
  /-- DBG_PRESENT_N_CHANGE (R687). DBG_PRESENT_N changes level; the debug port starts or stops taking request frames on DBG_D[3:0]. -/
  | dbgPresentNChange (high : Bool)
  /-- CONFIGURATION_REQUEST (R560). A host configuration request reaches an endpoint function, setting fields such as Memory Space Enable or VF Enable, or is answered with Request Retry Status during reset. -/
  | configurationRequest (fn : Nat) (w : CfgField) (v : Bool)
  deriving DecidableEq, Repr

end Sys2Proof
end

