-- ==== Sys2Proof/Decode.lean ====
section
/-! DEFINITION. The command a word spells: the table of operations and events gives no row any bits. -/

namespace Sys2Proof

/-- No row of the table has an encoding, so no word spells a command. -/
def decodeTableWord (_nbits _w : Nat) : Option Instr := none

end Sys2Proof
end

