-- ==== Sys2Proof/Config.lean ====
section
/-! DEFINITION. What the specification leaves open: constants with no body, so that nothing can be proved of their values. -/

namespace Sys2Proof.Config

/-- The `i`-th value the specification does not fix, drawn when the machine needs one (log entry 2). -/
opaque free64 : Nat → BitVec 64

/-- A free value of a line's width. -/
opaque freeLine : Nat → BitVec 512

/-- A free value of any width, as a number (log entry 2). -/
opaque freeNat : Nat → Nat

/-- Byte `i` of the CX0 boot ROM, which the specification does not list (R431). -/
opaque bootRom : Nat → BitVec 8

/-- The fused device ID, SEC_DEVID (R611): two doublewords. -/
opaque deviceId : Nat → BitVec 64

/-- The fused secrets the specification names and does not list: the Finish tag key and the wrapping key of each epoch
(R479, R484), and the hash of the debug key (R612). -/
opaque finishKey : Nat → List (BitVec 8)
opaque wrapKey : Nat → BitVec 256
opaque debugKeyHash : BitVec 384

/-- The hash of each fused boot-image root key (R624). -/
opaque bootKeyHash : Nat → BitVec 384

/-- The index of tagged table `t` (0 to 7) and the tag it compares, from pc and global history: Table 04-3 names the inputs
and the widths and not the folding. -/
opaque tagIndex : Nat → BitVec 64 → BitVec 222 → BitVec 11
opaque tagTag : Nat → BitVec 64 → BitVec 222 → BitVec 11

/-- The index and tag of the indirect-target table, from pc and the last 12 taken targets (Table 04-3). -/
opaque indIndex : BitVec 64 → List (BitVec 64) → BitVec 10
opaque indTag : BitVec 64 → List (BitVec 64) → BitVec 10

/-- Whether VFMIN and VFMAX of a number and a quiet NaN give the number (else the default NaN): two editions of IEEE 754
differ, and the specification names neither (log entry 5). -/
opaque minMaxNumber : Bool

/-- Whether VFMIN and VFMAX order −0 below +0 (else they give the first operand). -/
opaque minMaxOrdersZero : Bool

/-- Whether VFMA signals invalid for 0 × ∞ + quiet NaN, which IEEE 754 leaves to the implementation. -/
opaque fmaQuietInvalid : Bool

/-- A module as its SPD describes it (R272): 1 RDIMM or 2 MRDIMM, capacity in GiB, logical ranks, highest rate in 100 MT/s, and
whether it is built from x4 devices with no 3DS stack above 4. -/
structure Dimm where
  type : Nat
  gib : Nat
  ranks : Nat
  rate : Nat
  x4 : Bool
  deriving DecidableEq, Repr

/-- The module the board fits in slot 0 or 1 of a channel. -/
opaque dimm : Nat → Nat → Option Dimm

/-- Whether the board's flash has valid JESD216 tables (R622). -/
opaque sfdpOk : Bool

end Sys2Proof.Config
end

