-- ==== Sys2Proof/Machine/Bits.lean ====
section
/-! DEFINITION. Bit fields, sign extension and byte order (00.4). -/

namespace Sys2Proof.Machine

/-- Bits [hi:lo] of `v` as a number. -/
def fld (v : W64) (hi lo : Nat) : Nat := (v.toNat >>> lo) % 2 ^ (hi + 1 - lo)

/-- Bit `i` of `v`. -/
def bit (v : W64) (i : Nat) : Bool := v.getLsbD i

/-- `v` with bits [hi:lo] holding `x`. -/
def setFld (v : W64) (hi lo x : Nat) : W64 :=
  let m : Nat := 2 ^ (hi + 1 - lo)
  BitVec.ofNat 64 (v.toNat - (v.toNat >>> lo) % m * 2 ^ lo + x % m * 2 ^ lo)

/-- `v` with bit `i` at `b`. -/
def setBit (v : W64) (i : Nat) (b : Bool) : W64 := setFld v i i b.toNat

/-- A 64-bit word from a number. -/
abbrev w64 (n : Nat) : W64 := BitVec.ofNat 64 n

/-- Sign extension to 64 bits. -/
abbrev sext {n : Nat} (x : BitVec n) : W64 := x.signExtend 64

/-- Zero extension to 64 bits. -/
abbrev zext {n : Nat} (x : BitVec n) : W64 := x.setWidth 64

/-- The low `size` bytes of `v`, sign-extended when `se`, else zero-extended. -/
def extend (size : Nat) (se : Bool) (v : W64) : W64 :=
  match size, se with
  | 1, true => sext (v.setWidth 8)
  | 1, false => zext (v.setWidth 8)
  | 2, true => sext (v.setWidth 16)
  | 2, false => zext (v.setWidth 16)
  | 4, true => sext (v.setWidth 32)
  | 4, false => zext (v.setWidth 32)
  | _, _ => v

/-- Byte `i` of a line. -/
def lineByte (l : Line) (i : Nat) : Byte := l.extractLsb' (8 * i) 8

/-- A line with byte `i` replaced. -/
def setLineByte (l : Line) (i : Nat) (b : Byte) : Line :=
  (l &&& ~~~((0xff#512) <<< (8 * i))) ||| ((b.setWidth 512) <<< (8 * i))

/-- Doubleword `i` of a line. -/
def lineWord (l : Line) (i : Nat) : W64 := l.extractLsb' (64 * i) 64

/-- A line with doubleword `i` replaced. -/
def setLineWord (l : Line) (i : Nat) (v : W64) : Line :=
  (l &&& ~~~((BitVec.ofNat 512 (2 ^ 64 - 1)) <<< (64 * i))) ||| ((v.setWidth 512) <<< (64 * i))

/-- The bytes of a number, little-endian. -/
def leBytes (size n : Nat) : List Byte :=
  (List.range size).map fun i => BitVec.ofNat 8 (n >>> (8 * i))

/-- The number that bytes spell, little-endian. -/
def leNat : List Byte → Nat
  | [] => 0
  | b :: bs => b.toNat + 256 * leNat bs

/-- Bytes `off` to `off + size - 1` of a line as a number. -/
def lineNat (l : Line) (off size : Nat) : Nat := (l.toNat >>> (8 * off)) % 2 ^ (8 * size)

/-- The bytes of a line enabled by `mask` replaced by those of `d`. -/
def mergeLine (old d : Line) (mask : W64) : Line :=
  (List.range 64).foldl (fun l i => if mask.getLsbD i then setLineByte l i (lineByte d i) else l) old

/-- The bytes of a line replaced by the listed (offset, byte) pairs. -/
def patchLine (l : Line) (bs : List (Nat × Byte)) : Line :=
  bs.foldl (fun l e => setLineByte l e.1 e.2) l

/-- `x` saturated at `m`. -/
def satAdd (x k m : Nat) : Nat := min (x + k) m

end Sys2Proof.Machine
end

