-- ==== Sys2Proof/Machine/Flags.lean ====
section
/-! DEFINITION. Floating-point arithmetic of Table 02-12 with the rounding modes and sticky flags of U_FPCTL (R77, R78, R698,
IEEE 754 by R4). -/

namespace Sys2Proof.Machine

/-- A binary format: exponent and fraction widths. -/
structure Fmt where
  ew : Nat
  fw : Nat
  deriving DecidableEq, Repr

/-- The format of an element size code (R77). -/
def fmtOf (esz : Nat) : Fmt := if esz = 1 then ⟨5, 10⟩ else if esz = 2 then ⟨8, 23⟩ else ⟨11, 52⟩

/-- A datum: a NaN (signalling or not), an infinity, or ±m · 2^e. -/
inductive FVal where
  | nan (sig : Bool)
  | inf (neg : Bool)
  | fin (neg : Bool) (m : Nat) (e : Int)
  deriving DecidableEq, Repr

/-- The exponent bias. -/
def Fmt.bias (f : Fmt) : Int := 2 ^ (f.ew - 1) - 1

/-- The default quiet NaN (R78). -/
def Fmt.qnan (f : Fmt) : Nat := (2 ^ f.ew - 1) * 2 ^ f.fw + 2 ^ (f.fw - 1)

/-- A signed infinity and a signed zero. -/
def Fmt.infBits (f : Fmt) (neg : Bool) : Nat := neg.toNat * 2 ^ (f.ew + f.fw) + (2 ^ f.ew - 1) * 2 ^ f.fw
def Fmt.zeroBits (f : Fmt) (neg : Bool) : Nat := neg.toNat * 2 ^ (f.ew + f.fw)

/-- The datum an encoding stands for. -/
def Fmt.decode (f : Fmt) (x : Nat) : FVal :=
  let neg := decide ((x >>> (f.ew + f.fw)) % 2 = 1)
  let e := (x >>> f.fw) % 2 ^ f.ew
  let m := x % 2 ^ f.fw
  if e = 2 ^ f.ew - 1 then (if m = 0 then .inf neg else .nan (decide (m < 2 ^ (f.fw - 1))))
  else if e = 0 then .fin neg m (1 - f.bias - f.fw)
  else .fin neg (m + 2 ^ f.fw) ((e : Int) - f.bias - f.fw)

/-- A result and the flags it signals: nv, dz, of, uf, nx at bits 12 to 8 (Table 03-26). -/
structure FRes where
  bits : Nat
  flags : W64
  deriving DecidableEq, Repr

/-- The flags, in their places. -/
def fNV : W64 := 0x1000
def fDZ : W64 := 0x800
def fOF : W64 := 0x400
def fUF : W64 := 0x200
def fNX : W64 := 0x100

/-- The rounding modes of Table 03-26; 5 to 7 act as 0. -/
inductive Rm where
  | even | zero | down | up | away
  deriving DecidableEq, Repr

/-- The mode of U_FPCTL.rm. -/
def rmOf : Nat → Rm
  | 1 => .zero
  | 2 => .down
  | 3 => .up
  | 4 => .away
  | _ => .even

/-- Whether a magnitude with quotient `q`, remainder `r` of `d` is rounded away from zero. -/
def roundsUp (rm : Rm) (neg : Bool) (q r d : Nat) : Bool :=
  match rm with
  | .even => decide (d < 2 * r) || (decide (2 * r = d) && decide (q % 2 = 1))
  | .zero => false
  | .down => neg && decide (r ≠ 0)
  | .up => !neg && decide (r ≠ 0)
  | .away => decide (d ≤ 2 * r) && decide (r ≠ 0)

/-- m · 2^e as an integer multiple of 2^q, rounded: the multiple and whether it is inexact. -/
def roundAt (rm : Rm) (neg : Bool) (m : Nat) (e q : Int) : Nat × Bool :=
  if q ≤ e then (m * 2 ^ (e - q).toNat, false)
  else
    let d := 2 ^ (q - e).toNat
    (m / d + (roundsUp rm neg (m / d) (m % d) d).toNat, decide (m % d ≠ 0))

/-- The exact value ±m · 2^e rounded to a format, with overflow, underflow (tininess after rounding) and inexact. -/
def Fmt.round (f : Fmt) (rm : Rm) (neg : Bool) (m : Nat) (e : Int) : FRes :=
  if m = 0 then ⟨f.zeroBits neg, 0⟩
  else
    let emin : Int := 1 - f.bias
    let E : Int := e + Nat.log2 m
    let q := max E emin - f.fw
    let r := roundAt rm neg m e q
    let tiny := decide (E < emin) &&
      !(decide (E = emin - 1) && (roundAt rm neg m e (E - f.fw)).1 == 2 ^ (f.fw + 1))
    let bits := (q - (emin - f.fw)).toNat * 2 ^ f.fw + r.1
    if (2 ^ f.ew - 1) * 2 ^ f.fw ≤ bits then
      let toInf := match rm with | .even | .away => true | .zero => false | .down => neg | .up => !neg
      ⟨if toInf then f.infBits neg else f.infBits neg - 1, fOF ||| fNX⟩
    else
      ⟨f.zeroBits neg + bits, if r.2 then (if tiny then fUF ||| fNX else fNX) else 0⟩

/-- A NaN result: nv when an operand is signalling or the operation is invalid. -/
def Fmt.nanRes (f : Fmt) (invalid : Bool) : FRes := ⟨f.qnan, if invalid then fNV else 0⟩

/-- Whether an operand is a signalling NaN. -/
def FVal.isSig : FVal → Bool
  | .nan s => s
  | _ => false

/-- Whether an operand is a NaN. -/
def FVal.isNan : FVal → Bool
  | .nan _ => true
  | _ => false

/-- The sign of a sum that is exactly zero (IEEE 754 6.3). -/
def zeroSign (rm : Rm) (a b : Bool) : Bool := if a = b then a else decide (rm = .down)

/-- The sum of two finite numbers or infinities, not NaN. -/
def Fmt.addVal (f : Fmt) (rm : Rm) : FVal → FVal → FRes
  | .inf a, .inf b => if a = b then ⟨f.infBits a, 0⟩ else f.nanRes true
  | .inf a, _ => ⟨f.infBits a, 0⟩
  | _, .inf b => ⟨f.infBits b, 0⟩
  | .fin s1 m1 e1, .fin s2 m2 e2 =>
    let e := min e1 e2
    let x : Int := (if s1 then -1 else 1) * (m1 * 2 ^ (e1 - e).toNat : Nat)
      + (if s2 then -1 else 1) * (m2 * 2 ^ (e2 - e).toNat : Nat)
    if x = 0 then ⟨f.zeroBits (zeroSign rm s1 s2), 0⟩ else f.round rm (decide (x < 0)) x.natAbs e
  | _, _ => f.nanRes false

/-- A binary operation that gives a NaN when an operand is one. -/
def Fmt.nanOr (f : Fmt) (a b : FVal) (r : FRes) : FRes :=
  if a.isNan || b.isNan then f.nanRes (a.isSig || b.isSig) else r

/-- The opposite sign. -/
def FVal.neg : FVal → FVal
  | .inf s => .inf (!s)
  | .fin s m e => .fin (!s) m e
  | x => x

/-- VFADD. -/
def Fmt.add (f : Fmt) (rm : Rm) (x y : Nat) : FRes :=
  f.nanOr (f.decode x) (f.decode y) (f.addVal rm (f.decode x) (f.decode y))

/-- VFSUB. -/
def Fmt.sub (f : Fmt) (rm : Rm) (x y : Nat) : FRes :=
  f.nanOr (f.decode x) (f.decode y) (f.addVal rm (f.decode x) (f.decode y).neg)

/-- The exact product, or none for 0 × ∞. -/
def mulVal : FVal → FVal → Option FVal
  | .inf a, .inf b => some (.inf (a != b))
  | .inf a, .fin b m _ => if m = 0 then none else some (.inf (a != b))
  | .fin a m _, .inf b => if m = 0 then none else some (.inf (a != b))
  | .fin a m e, .fin b n g => some (.fin (a != b) (m * n) (e + g))
  | x, _ => some x

/-- VFMUL. -/
def Fmt.mul (f : Fmt) (rm : Rm) (x y : Nat) : FRes :=
  f.nanOr (f.decode x) (f.decode y)
    (match mulVal (f.decode x) (f.decode y) with
     | none => f.nanRes true
     | some (.inf s) => ⟨f.infBits s, 0⟩
     | some (.fin s m e) => f.round rm s m e
     | some (.nan _) => f.nanRes false)

/-- VFMA: x · y + z with one rounding. -/
def Fmt.fma (f : Fmt) (rm : Rm) (x y z : Nat) : FRes :=
  let a := f.decode x
  let b := f.decode y
  let c := f.decode z
  if a.isNan || b.isNan then f.nanRes (a.isSig || b.isSig || c.isSig)
  else match mulVal a b with
    | none => f.nanRes (if c.isNan then c.isSig || Config.fmaQuietInvalid else true)
    | some p => if c.isNan then f.nanRes c.isSig else f.addVal rm p c

/-- VFDIV. -/
def Fmt.div (f : Fmt) (rm : Rm) (x y : Nat) : FRes :=
  f.nanOr (f.decode x) (f.decode y)
    (match f.decode x, f.decode y with
     | .inf _, .inf _ => f.nanRes true
     | .inf a, .fin b _ _ => ⟨f.infBits (a != b), 0⟩
     | .fin a _ _, .inf b => ⟨f.zeroBits (a != b), 0⟩
     | .fin a m e, .fin b n g =>
       if n = 0 then (if m = 0 then f.nanRes true else ⟨f.infBits (a != b), fDZ⟩)
       else
         let k := 2 * f.fw + 4 + Nat.log2 n
         let q := m * 2 ^ k / n
         let sticky := decide (m * 2 ^ k % n ≠ 0)
         f.round rm (a != b) (2 * q + sticky.toNat) (e - g - k - 1)
     | _, _ => f.nanRes false)

/-- The integer square root, by bits. -/
def isqrt (n : Nat) : Nat :=
  (List.range (Nat.log2 n / 2 + 1)).reverse.foldl (fun r i => if (r + 2 ^ i) * (r + 2 ^ i) ≤ n then r + 2 ^ i else r) 0

/-- VFSQRT. -/
def Fmt.sqrt (f : Fmt) (rm : Rm) (x : Nat) : FRes :=
  match f.decode x with
  | .nan s => f.nanRes s
  | .inf s => if s then f.nanRes true else ⟨f.infBits false, 0⟩
  | .fin s m e =>
    if m = 0 then ⟨f.zeroBits s, 0⟩
    else if s then f.nanRes true
    else
      let k : Nat := 2 * f.fw + 6 + (e % 2).toNat
      let r := isqrt (m * 2 ^ k)
      f.round rm false (2 * r + (decide (r * r ≠ m * 2 ^ k)).toNat) ((e - k) / 2 - 1)

/-- Whether a < b of two numbers (no NaN). -/
def FVal.lt : FVal → FVal → Bool
  | .inf a, .inf b => a && !b
  | .inf a, _ => a
  | _, .inf b => !b
  | .fin s1 m1 e1, .fin s2 m2 e2 =>
    let e := min e1 e2
    let v := fun (s : Bool) (m : Nat) (g : Int) => (if s then (-1 : Int) else 1) * (m * 2 ^ (g - e).toNat : Nat)
    decide (v s1 m1 e1 < v s2 m2 e2)
  | _, _ => false

/-- Whether a datum is negative by its sign. -/
def FVal.sign : FVal → Bool
  | .inf s => s
  | .fin s _ _ => s
  | _ => false

/-- VFMIN and VFMAX. -/
def Fmt.minMax (f : Fmt) (wantMax : Bool) (x y : Nat) : FRes :=
  let a := f.decode x
  let b := f.decode y
  let nv : W64 := if a.isSig || b.isSig then fNV else 0
  if a.isNan && b.isNan then ⟨f.qnan, nv⟩
  else if a.isNan || b.isNan then
    ⟨if Config.minMaxNumber && !(a.isSig || b.isSig) then (if a.isNan then y else x) else f.qnan, nv⟩
  else if a.lt b then ⟨if wantMax then y else x, 0⟩
  else if b.lt a then ⟨if wantMax then x else y, 0⟩
  else if Config.minMaxOrdersZero && (a.sign != b.sign) then ⟨if a.sign == wantMax then y else x, 0⟩
  else ⟨x, 0⟩

/-- VFCVTI: to a signed integer of the same width (R698). -/
def Fmt.toInt (f : Fmt) (rm : Rm) (x : Nat) : FRes :=
  let w := 1 + f.ew + f.fw
  let top : Nat := 2 ^ (w - 1)
  match f.decode x with
  | .nan _ => ⟨0, fNV⟩
  | .inf s => ⟨if s then top else top - 1, fNV⟩
  | .fin s m e =>
    let r := roundAt rm s m e 0
    if s then (if top < r.1 then ⟨top, fNV⟩ else ⟨(2 * top - r.1) % (2 * top), if r.2 then fNX else 0⟩)
    else (if top ≤ r.1 then ⟨top - 1, fNV⟩ else ⟨r.1, if r.2 then fNX else 0⟩)

/-- VFCVTF: from a signed integer of the same width. -/
def Fmt.ofInt (f : Fmt) (rm : Rm) (x : Nat) : FRes :=
  let w := 1 + f.ew + f.fw
  if 2 ^ (w - 1) ≤ x then f.round rm true (2 ^ w - x) 0 else f.round rm false x 0

end Sys2Proof.Machine
end

