-- ==== Sys2Proof/Machine/Map.lean ====
section
/-! DEFINITION. Sparse tables keyed by Nat, in one canonical form: keys strictly rising. -/

namespace Sys2Proof.Machine

/-- A sparse table: keys strictly rising. `NMap.get d` reads an unlisted key as `d`. -/
abbrev NMap (α : Type) := List (Nat × α)

namespace NMap

variable {α : Type}

/-- The listed entry of a key. -/
def find? : NMap α → Nat → Option α
  | [], _ => none
  | (k', v) :: m, k => if k = k' then some v else find? m k

/-- Lists `v` at `k`, keeping the keys rising. -/
def put : NMap α → Nat → α → NMap α
  | [], k, v => [(k, v)]
  | (k', v') :: m, k, v =>
    if k = k' then (k, v) :: m
    else if k < k' then (k, v) :: (k', v') :: m
    else (k', v') :: put m k v

/-- Removes the entry at `k`. -/
def erase (m : NMap α) (k : Nat) : NMap α := m.filter fun e => decide (e.1 ≠ k)

/-- What key `k` reads as, where an unlisted key reads as `d`. -/
def get (d : α) (m : NMap α) (k : Nat) : α := (find? m k).getD d

/-- Writes `v` at `k`; writing what an unlisted key reads as removes the entry. -/
def set [DecidableEq α] (d : α) (m : NMap α) (k : Nat) (v : α) : NMap α :=
  if v = d then erase m k else put m k v

/-- Every key of `m` lies above `k`. -/
def above (k : Nat) : NMap α → Bool
  | [] => true
  | (k', _) :: _ => decide (k < k')

/-- The keys rise strictly. -/
def sorted : NMap α → Bool
  | [] => true
  | (k, _) :: m => above k m && sorted m

/-- The canonical form: keys strictly rising, and no entry equal to what an unlisted key reads as. -/
def wf [DecidableEq α] (d : α) (m : NMap α) : Bool := sorted m && m.all fun e => decide (e.2 ≠ d)

end NMap

end Sys2Proof.Machine
end

