-- ==== Sys2Proof/Machine/RegTab.lean ====
section
/-! DEFINITION. The register tables of the specification: for every memory-mapped register its place in the Chip
Register Space and its fields with their access types and their Cold, Warm and Catch values (Tables 00-3 to 17-4). -/


namespace Sys2Proof.Machine

/-- The access types of Table 00-7 (R17). -/
inductive Acc where
  | ro | rw | rw1c | rws | rc | wo | rwl | rsv
  deriving DecidableEq, Repr

/-- One field of a register table: bits, name, access type, and its content after a Cold, Warm and Catch reset; `none`
is the dash of R21, the field keeps its content. -/
structure Field where
  hi : Nat
  lo : Nat
  name : String
  acc : Acc
  cold : Nat
  warm : Option Nat
  ctch : Option Nat
  deriving DecidableEq, Repr

/-- Which windows hold a register (R29 to R31, Table 14-6, R337, 16.5). -/
inductive Block where
  | sv0 | sv1 | sv2 | sv3 | sv | stop | tile | mc | io | io0 | ep | bank | unc
  deriving DecidableEq, Repr

/-- The memory-mapped registers, by the names the specification gives them. -/
inductive RegName where
  | ID_PART | ID_PARAM0 | ID_PARAM1 | ID_PARAM2 | AVAIL_TILE_LO | AVAIL_TILE_HI | AVAIL_MEM | AVAIL_IO | AVAIL_WAYS
  | STRAP_STATUS | STOP_ID | SAM_STATUS | CCH_MODE | FAB_BYPASS | SAM_RADDR | SAM_RCFG | SAM_ABASE | SAM_ACFG
  | IOTU_INV | IOTU_INVA | SEC_DBG_EN | POT_BASE | POT_LIMIT | POT_INV | PV_REQ | PV_DST | PV_RSP | KEY_DATA
  | KEY_CMD | KEY_STATUS | KEY_EPOCH | SEC_ALM_CFG | SEC_ALM_STATUS | SEC_ALM_LOG | SEC_INJ_EN | SEC_DBG_TOK
  | SEC_DBG_NONCE | SEC_DBG_CMD | SEC_DEVID | ERG_GCTL | BOOT_STATUS | FUSE_LOCK | BOOT_RCV_ADDR | BOOT_RCV_DATA
  | BOOT_RCV_CMD | PWR_RDY | PWR_DOM_CTL | PWR_PKG_CFG | PWR_PKG_REQ | PWR_PKG_STATUS | AO_TIMER | PWR_WAKE | PWR_RST
  | PWR_THERM | DB_CFG | DB_STATUS | FIN_CFG | FIN_STATUS | FIN_RESUME | FIN_REGION | FIN_CX3 | FIN_COPY_CTL
  | FIN_RNG_SRC | FIN_RNG_DST | FIN_RNG_LEN | CCH_CE_CFG | RAS_CFG | RAS_THR | SYS_IRQ | TRNG_STATUS | TRNG_OUT
  | SWU_POLICY | SWU_SRC | SWU_CMD | SWU_STATUS | SWU_ID | CX3L_POLICY | CX3L_SRC | CX3L_CMD | CX3L_STATUS | CX3_MBIN
  | CX3_MBOUT | CX3_MBDB | MUX_FN | MUX_PULL | MUX_STATUS | GPIO_DIR | GPIO_OUT | GPIO_IN | GPIO_WAKE | CXS_CTL
  | TC_DIRTY | TC_WAYDIS0 | TC_WAYDIS1 | TC_FREQ | TC_CSTATE | TC_RST | NI_RT | NI_WD_CFG | NI_WD_LOG | NI_RT_STATUS
  | NI_PORT | PRB_CTL | PRB_MATCH | PRB_ALO | PRB_AHI | PRB_TRACE | PRB_STATUS | PRB_CNT | PRB_SHD | PRB_SHTAG
  | MC_DIMM | MC_SCHED | MC_RH_CFG | MC_RAS_CFG | MC_LAT_TGT | SW_CTL | SW_STATUS | SWQ_CTX | SWQ_GROOT | SWQ_HROOT
  | SWQ_PSTATE | SWQ_CFG | SWQ_CTL | SWQ_IRQA | SWQ_IRQD | SWQ_QCB | SWQ_DB | SWQ_RELDB | IO_CFG | IO_RST | IO_LINK
  | IO_CTO | IO_SL | IOTU_ROOT | IOTU_MSI | IOTU_FAULT | IOTU_RID | EP_CTL | EP_SEND | EP_FLR_PEND | EP_VF0 | EP_VF1
  | EP_RBASE | EP_RCFG | EP_RTAIL | EP_RHEAD | EP_RSTAT | EP_MBOX | ERR_STATUS | ERR_ADDR | ERR_MISC | ERR_TIME
  | ERR_CTL | ERR_INJ | ERR_INJA | UNC_CTL | UNC_SEL | UNC_CNT | UNC_SHD | UNC_CYC | UNC_CYCSHD | UNC_SHTAG
  deriving DecidableEq, Repr

/-- The fields of a register, most significant first, as its table lists them. A value that depends on the instance
(fuse, strap, fixed, per stop or per index) stands here as 0 and is given by `coldAt`. -/
def RegName.fields : RegName → List Field
  | .ID_PART => [
      ⟨63, 48, "vendor", .ro, 0x50b0, some 0x50b0, some 0x50b0⟩,
      ⟨47, 32, "family", .ro, 0x4b52, some 0x4b52, some 0x4b52⟩,
      ⟨31, 16, "part", .ro, 0x9144, some 0x9144, some 0x9144⟩,
      ⟨15, 8, "stepping", .ro, 0xa1, some 0xa1, some 0xa1⟩,
      ⟨7, 1, "zero", .ro, 0, some 0, some 0⟩,
      ⟨0, 0, "fuse_ok", .ro, 1, some 1, some 1⟩]
  | .ID_PARAM0 => [
      ⟨63, 60, "zero", .ro, 0, some 0, some 0⟩,
      ⟨59, 56, "mesh_cols", .ro, 0xd, some 0xd, some 0xd⟩,
      ⟨55, 52, "mesh_rows", .ro, 8, some 8, some 8⟩,
      ⟨51, 48, "cx_pairs", .ro, 4, some 4, some 4⟩,
      ⟨47, 40, "io_stops", .ro, 0xc, some 0xc, some 0xc⟩,
      ⟨39, 32, "sweep_engines", .ro, 0x10, some 0x10, some 0x10⟩,
      ⟨31, 24, "mem_channels", .ro, 0x10, some 0x10, some 0x10⟩,
      ⟨23, 16, "tiles", .ro, 0x48, some 0x48, some 0x48⟩,
      ⟨15, 0, "cores", .ro, 0x90, some 0x90, some 0x90⟩]
  | .ID_PARAM1 => [
      ⟨63, 48, "key_ids", .ro, 0x1000, some 0x1000, some 0x1000⟩,
      ⟨47, 32, "partitions", .ro, 0x1000, some 0x1000, some 0x1000⟩,
      ⟨31, 16, "l3_slice_kib", .ro, 0xc00, some 0xc00, some 0xc00⟩,
      ⟨15, 0, "l2_kib", .ro, 0x400, some 0x400, some 0x400⟩]
  | .ID_PARAM2 => [
      ⟨63, 56, "ucode_abi_max", .ro, 0x23, some 0x23, some 0x23⟩,
      ⟨55, 48, "ucode_abi_min", .ro, 0x20, some 0x20, some 0x20⟩,
      ⟨47, 32, "nominal_mhz", .ro, 0xb54, some 0xb54, some 0xb54⟩,
      ⟨31, 16, "max_vfs", .ro, 0x400, some 0x400, some 0x400⟩,
      ⟨15, 0, "job_queues", .ro, 0x400, some 0x400, some 0x400⟩]
  | .AVAIL_TILE_LO => [
      ⟨63, 0, "tile", .ro, 0xffffffffffffffff, none, some 0xffffffffffffffff⟩]
  | .AVAIL_TILE_HI => [
      ⟨63, 8, "zero", .ro, 0, some 0, some 0⟩,
      ⟨7, 0, "tile", .ro, 0xff, none, some 0xff⟩]
  | .AVAIL_MEM => [
      ⟨63, 32, "zero", .ro, 0, some 0, some 0⟩,
      ⟨31, 16, "sweep", .ro, 0xffff, none, some 0xffff⟩,
      ⟨15, 0, "channel", .ro, 0xffff, none, some 0xffff⟩]
  | .AVAIL_IO => [
      ⟨63, 12, "zero", .ro, 0, some 0, some 0⟩,
      ⟨11, 0, "io", .ro, 0xfff, none, some 0xfff⟩]
  | .AVAIL_WAYS => [
      ⟨63, 48, "zero", .ro, 0, some 0, some 0⟩,
      ⟨47, 32, "l3_off", .ro, 0, none, some 0⟩,
      ⟨31, 16, "l2_off", .ro, 0, none, some 0⟩,
      ⟨15, 0, "l1_off", .ro, 0, none, some 0⟩]
  | .STRAP_STATUS => [
      ⟨63, 5, "zero", .ro, 0, some 0, some 0⟩,
      ⟨4, 3, "test", .ro, 0, none, none⟩,
      ⟨2, 2, "ep1", .ro, 0, none, none⟩,
      ⟨1, 1, "ep0", .ro, 0, none, none⟩,
      ⟨0, 0, "skt", .ro, 0, none, none⟩]
  | .STOP_ID => [
      ⟨63, 33, "zero", .ro, 0, some 0, some 0⟩,
      ⟨32, 32, "in_service", .ro, 1, none, some 1⟩,
      ⟨31, 24, "zero", .ro, 0, some 0, some 0⟩,
      ⟨23, 16, "index", .ro, 0, none, none⟩,
      ⟨15, 12, "zero", .ro, 0, some 0, some 0⟩,
      ⟨11, 8, "kind", .ro, 0, none, none⟩,
      ⟨7, 0, "stop_id", .ro, 0, none, none⟩]
  | .SAM_STATUS => [
      ⟨63, 32, "zero", .ro, 0, some 0, some 0⟩,
      ⟨31, 16, "applied", .ro, 0, some 0, some 0⟩,
      ⟨15, 2, "zero", .ro, 0, some 0, some 0⟩,
      ⟨1, 1, "conflict", .rw1c, 0, some 0, some 0⟩,
      ⟨0, 0, "pending", .ro, 0, some 0, some 0⟩]
  | .CCH_MODE => [
      ⟨63, 2, "zero", .ro, 0, some 0, some 0⟩,
      ⟨1, 1, "lock", .rwl, 0, some 0, some 0⟩,
      ⟨0, 0, "quad", .rwl, 0, some 0, some 0⟩]
  | .FAB_BYPASS => [
      ⟨63, 18, "zero", .ro, 0, some 0, some 0⟩,
      ⟨17, 16, "count", .ro, 0, none, none⟩,
      ⟨15, 8, "stop_b", .ro, 0, none, none⟩,
      ⟨7, 0, "stop_a", .ro, 0, none, none⟩]
  | .SAM_RADDR => [
      ⟨63, 63, "valid", .rw, 0, some 0, some 0⟩,
      ⟨62, 54, "zero", .ro, 0, some 0, some 0⟩,
      ⟨53, 32, "limit", .rw, 0, some 0, some 0⟩,
      ⟨31, 22, "zero", .ro, 0, some 0, some 0⟩,
      ⟨21, 0, "base", .rw, 0, some 0, some 0⟩]
  | .SAM_RCFG => [
      ⟨63, 63, "mirror", .rw, 0, some 0, some 0⟩,
      ⟨62, 62, "hash", .rw, 0, some 0, some 0⟩,
      ⟨61, 59, "zero", .ro, 0, some 0, some 0⟩,
      ⟨58, 56, "gran", .rw, 0, some 0, some 0⟩,
      ⟨55, 48, "zero", .ro, 0, some 0, some 0⟩,
      ⟨47, 32, "chan_off", .rw, 0, some 0, some 0⟩,
      ⟨31, 16, "zero", .ro, 0, some 0, some 0⟩,
      ⟨15, 0, "chans", .rw, 0, some 0, some 0⟩]
  | .SAM_ABASE => [
      ⟨63, 63, "valid", .rw, 0, some 0, some 0⟩,
      ⟨62, 52, "zero", .ro, 0, some 0, some 0⟩,
      ⟨51, 20, "base", .rw, 0, some 0, some 0⟩,
      ⟨19, 0, "zero", .ro, 0, some 0, some 0⟩]
  | .SAM_ACFG => [
      ⟨63, 52, "zero", .ro, 0, some 0, some 0⟩,
      ⟨51, 20, "limit", .rw, 0, some 0, some 0⟩,
      ⟨19, 10, "zero", .ro, 0, some 0, some 0⟩,
      ⟨9, 8, "link", .rw, 0, some 0, some 0⟩,
      ⟨7, 4, "stop", .rw, 0, some 0, some 0⟩,
      ⟨3, 2, "zero", .ro, 0, some 0, some 0⟩,
      ⟨1, 0, "kind", .rw, 0, some 0, some 0⟩]
  | .IOTU_INV => [
      ⟨63, 63, "busy", .ro, 0, some 0, some 0⟩,
      ⟨62, 61, "scope", .wo, 0, some 0, some 0⟩,
      ⟨60, 60, "world", .wo, 0, some 0, some 0⟩,
      ⟨59, 32, "zero", .ro, 0, some 0, some 0⟩,
      ⟨31, 16, "ctx", .wo, 0, some 0, some 0⟩,
      ⟨15, 0, "asid", .wo, 0, some 0, some 0⟩]
  | .IOTU_INVA => [
      ⟨63, 57, "zero", .ro, 0, some 0, some 0⟩,
      ⟨56, 12, "addr", .rw, 0, some 0, some 0⟩,
      ⟨11, 0, "zero", .ro, 0, some 0, some 0⟩]
  | .SEC_DBG_EN => [
      ⟨63, 32, "zero", .ro, 0, some 0, some 0⟩,
      ⟨31, 16, "part", .ro, 0, some 0, some 0⟩,
      ⟨15, 4, "zero", .ro, 0, some 0, some 0⟩,
      ⟨3, 3, "sni", .ro, 0, some 0, some 0⟩,
      ⟨2, 2, "sinv", .ro, 0, some 0, some 0⟩,
      ⟨1, 1, "oni", .rw, 0, some 0, some 0⟩,
      ⟨0, 0, "oinv", .rw, 0, some 0, some 0⟩]
  | .POT_BASE => [
      ⟨63, 52, "zero", .ro, 0, some 0, some 0⟩,
      ⟨51, 30, "base", .rwl, 0, some 0, some 0⟩,
      ⟨29, 1, "zero", .ro, 0, some 0, some 0⟩,
      ⟨0, 0, "lock", .rwl, 0, some 0, some 0⟩]
  | .POT_LIMIT => [
      ⟨63, 52, "zero", .ro, 0, some 0, some 0⟩,
      ⟨51, 30, "limit", .rwl, 0, some 0, some 0⟩,
      ⟨29, 0, "zero", .ro, 0, some 0, some 0⟩]
  | .POT_INV => [
      ⟨63, 52, "zero", .ro, 0, some 0, some 0⟩,
      ⟨51, 12, "page", .wo, 0, some 0, some 0⟩,
      ⟨11, 1, "zero", .ro, 0, some 0, some 0⟩,
      ⟨0, 0, "busy", .ro, 0, some 0, some 0⟩]
  | .PV_REQ => [
      ⟨63, 52, "zero", .ro, 0, some 0, some 0⟩,
      ⟨51, 8, "addr", .rw, 0, some 0, some 0⟩,
      ⟨7, 2, "zero", .ro, 0, some 0, some 0⟩,
      ⟨1, 0, "op", .wo, 0, some 0, some 0⟩]
  | .PV_DST => [
      ⟨63, 52, "zero", .ro, 0, some 0, some 0⟩,
      ⟨51, 8, "addr", .rw, 0, some 0, some 0⟩,
      ⟨7, 0, "zero", .ro, 0, some 0, some 0⟩]
  | .PV_RSP => [
      ⟨63, 63, "busy", .ro, 0, some 0, some 0⟩,
      ⟨62, 62, "collide", .rw1c, 0, some 0, some 0⟩,
      ⟨61, 8, "zero", .ro, 0, some 0, some 0⟩,
      ⟨7, 0, "result", .ro, 0, some 0, some 0⟩]
  | .KEY_DATA => [
      ⟨63, 0, "key", .wo, 0, some 0, some 0⟩]
  | .KEY_CMD => [
      ⟨63, 18, "zero", .ro, 0, some 0, some 0⟩,
      ⟨17, 16, "op", .wo, 0, some 0, some 0⟩,
      ⟨15, 12, "zero", .ro, 0, some 0, some 0⟩,
      ⟨11, 0, "slot", .wo, 0, some 0, some 0⟩]
  | .KEY_STATUS => [
      ⟨63, 48, "dropped", .ro, 0, some 0, some 0⟩,
      ⟨47, 32, "poisoned", .ro, 0, some 0, some 0⟩,
      ⟨31, 17, "zero", .ro, 0, some 0, some 0⟩,
      ⟨16, 16, "clr", .wo, 0, some 0, some 0⟩,
      ⟨15, 10, "zero", .ro, 0, some 0, some 0⟩,
      ⟨9, 8, "state", .ro, 0, some 0, some 0⟩,
      ⟨7, 4, "zero", .ro, 0, some 0, some 0⟩,
      ⟨3, 1, "err", .ro, 0, some 0, some 0⟩,
      ⟨0, 0, "busy", .ro, 0, some 0, some 0⟩]
  | .KEY_EPOCH => [
      ⟨63, 10, "zero", .ro, 0, some 0, some 0⟩,
      ⟨9, 9, "exhausted", .ro, 0, none, none⟩,
      ⟨8, 8, "erased", .rw1c, 0, none, none⟩,
      ⟨7, 7, "zero", .ro, 0, some 0, some 0⟩,
      ⟨6, 0, "epoch", .ro, 0, none, none⟩]
  | .SEC_ALM_CFG => [
      ⟨63, 63, "lock", .rwl, 0, none, none⟩,
      ⟨62, 4, "zero", .ro, 0, some 0, some 0⟩,
      ⟨3, 0, "act", .rwl, 0, none, none⟩]
  | .SEC_ALM_STATUS => [
      ⟨63, 8, "zero", .ro, 0, some 0, some 0⟩,
      ⟨7, 0, "fired", .ro, 0, none, none⟩]
  | .SEC_ALM_LOG => [
      ⟨63, 56, "first", .ro, 0, none, none⟩,
      ⟨55, 48, "count", .ro, 0, none, none⟩,
      ⟨47, 0, "time", .ro, 0, none, none⟩]
  | .SEC_INJ_EN => [
      ⟨63, 63, "lock", .rwl, 0, some 0, some 0⟩,
      ⟨62, 1, "zero", .ro, 0, some 0, some 0⟩,
      ⟨0, 0, "en", .rwl, 0, some 0, some 0⟩]
  | .SEC_DBG_TOK => [
      ⟨63, 0, "data", .wo, 0, some 0, some 0⟩]
  | .SEC_DBG_NONCE => [
      ⟨63, 0, "data", .ro, 0, some 0, some 0⟩]
  | .SEC_DBG_CMD => [
      ⟨63, 1, "zero", .ro, 0, some 0, some 0⟩,
      ⟨0, 0, "go", .wo, 0, some 0, some 0⟩]
  | .SEC_DEVID => [
      ⟨63, 0, "data", .ro, 0, some 0, some 0⟩]
  | .ERG_GCTL => [
      ⟨63, 63, "busy", .ro, 0, some 0, some 0⟩,
      ⟨62, 62, "frozen", .ro, 0, some 0, some 0⟩,
      ⟨61, 52, "zero", .ro, 0, some 0, some 0⟩,
      ⟨51, 48, "tag", .ro, 0, some 0, some 0⟩,
      ⟨47, 2, "zero", .ro, 0, some 0, some 0⟩,
      ⟨1, 0, "op", .wo, 0, some 0, some 0⟩]
  | .BOOT_STATUS => [
      ⟨63, 60, "state", .ro, 0, some 0, some 0⟩,
      ⟨59, 57, "zero", .ro, 0, some 0, some 0⟩,
      ⟨56, 56, "copy", .ro, 0, some 0, some 0⟩,
      ⟨55, 48, "a_err", .ro, 0, some 0, some 0⟩,
      ⟨47, 40, "b_err", .ro, 0, some 0, some 0⟩,
      ⟨39, 17, "zero", .ro, 0, some 0, some 0⟩,
      ⟨16, 16, "slow", .ro, 0, some 0, some 0⟩,
      ⟨15, 0, "seq", .ro, 0, some 0, some 0⟩]
  | .FUSE_LOCK => [
      ⟨63, 56, "zero", .ro, 0, some 0, some 0⟩,
      ⟨55, 52, "key_present", .ro, 0, none, none⟩,
      ⟨51, 48, "key_rev", .ro, 0, none, none⟩,
      ⟨47, 8, "zero", .ro, 0, some 0, some 0⟩,
      ⟨7, 0, "group", .ro, 0, none, none⟩]
  | .BOOT_RCV_ADDR => [
      ⟨63, 32, "zero", .ro, 0, some 0, some 0⟩,
      ⟨31, 0, "addr", .rw, 0, some 0, some 0⟩]
  | .BOOT_RCV_DATA => [
      ⟨63, 0, "data", .wo, 0, some 0, some 0⟩]
  | .BOOT_RCV_CMD => [
      ⟨63, 63, "busy", .ro, 0, some 0, some 0⟩,
      ⟨62, 60, "err", .ro, 0, some 0, some 0⟩,
      ⟨59, 2, "zero", .ro, 0, some 0, some 0⟩,
      ⟨1, 0, "op", .wo, 0, some 0, some 0⟩]
  | .PWR_RDY => [
      ⟨63, 0, "ready", .ro, 0xffffffffffffffff, some 0xffffffffffffffff, some 0xffffffffffffffff⟩]
  | .PWR_DOM_CTL => [
      ⟨63, 18, "zero", .ro, 0, some 0, some 0⟩,
      ⟨17, 16, "err", .rw1c, 0, some 0, some 0⟩,
      ⟨15, 8, "core", .rw, 0xff, some 0xff, some 0xff⟩,
      ⟨7, 6, "fixed_hi", .ro, 3, some 3, some 3⟩,
      ⟨5, 5, "serdes_a", .rw, 1, some 1, some 1⟩,
      ⟨4, 0, "fixed_lo", .ro, 0x1f, some 0x1f, some 0x1f⟩]
  | .PWR_PKG_CFG => [
      ⟨63, 63, "lock", .rwl, 0, none, none⟩,
      ⟨62, 32, "zero", .ro, 0, some 0, some 0⟩,
      ⟨31, 16, "idle_us", .rwl, 0x32, none, none⟩,
      ⟨15, 10, "zero", .ro, 0, some 0, some 0⟩,
      ⟨9, 0, "limit_w", .rwl, 0x1f4, none, none⟩]
  | .PWR_PKG_REQ => [
      ⟨63, 2, "zero", .ro, 0, some 0, some 0⟩,
      ⟨1, 0, "target", .wo, 0, some 0, some 0⟩]
  | .PWR_PKG_STATUS => [
      ⟨63, 12, "zero", .ro, 0, some 0, some 0⟩,
      ⟨11, 11, "armed", .ro, 0, some 0, some 0⟩,
      ⟨10, 8, "pending", .ro, 0, some 0, some 0⟩,
      ⟨7, 4, "zero", .ro, 0, some 0, some 0⟩,
      ⟨3, 0, "state", .ro, 0, some 0, some 0⟩]
  | .AO_TIMER => [
      ⟨63, 63, "armed", .rw, 0, none, some 0⟩,
      ⟨62, 62, "refused", .rw1c, 0, none, some 0⟩,
      ⟨61, 48, "zero", .ro, 0, some 0, some 0⟩,
      ⟨47, 0, "count", .rw, 0, none, some 0⟩]
  | .PWR_WAKE => [
      ⟨63, 56, "zero", .ro, 0, some 0, some 0⟩,
      ⟨55, 48, "detail", .ro, 0, none, some 0⟩,
      ⟨47, 40, "zero", .ro, 0, some 0, some 0⟩,
      ⟨39, 32, "mask", .ro, 0x80, none, some 0x20⟩,
      ⟨31, 16, "count", .ro, 0, none, none⟩,
      ⟨15, 4, "zero", .ro, 0, some 0, some 0⟩,
      ⟨3, 0, "code", .ro, 7, none, some 5⟩]
  | .PWR_RST => [
      ⟨63, 2, "zero", .ro, 0, some 0, some 0⟩,
      ⟨1, 0, "op", .wo, 0, some 0, some 0⟩]
  | .PWR_THERM => [
      ⟨63, 63, "trip", .ro, 0, none, none⟩,
      ⟨62, 56, "zero", .ro, 0, some 0, some 0⟩,
      ⟨55, 48, "trip_stop", .ro, 0, none, none⟩,
      ⟨47, 40, "hot_stop", .ro, 0, some 0, some 0⟩,
      ⟨39, 32, "hot_c", .ro, 0, some 0, some 0⟩,
      ⟨31, 8, "zero", .ro, 0, some 0, some 0⟩,
      ⟨7, 0, "throttle", .rw, 0x5c, none, none⟩]
  | .DB_CFG => [
      ⟨63, 63, "lock", .rwl, 0, some 0, some 0⟩,
      ⟨62, 14, "zero", .ro, 0, some 0, some 0⟩,
      ⟨13, 8, "l3_limit", .rwl, 0x18, none, none⟩,
      ⟨7, 5, "zero", .ro, 0, some 0, some 0⟩,
      ⟨4, 0, "l2_limit", .rwl, 8, none, none⟩]
  | .DB_STATUS => [
      ⟨63, 1, "zero", .ro, 0, some 0, some 0⟩,
      ⟨0, 0, "over", .ro, 0, some 0, some 0⟩]
  | .FIN_CFG => [
      ⟨63, 63, "lock", .rwl, 0, none, none⟩,
      ⟨62, 48, "zero", .ro, 0, some 0, some 0⟩,
      ⟨47, 32, "cx3_us", .rwl, 0, none, none⟩,
      ⟨31, 18, "zero", .ro, 0, some 0, some 0⟩,
      ⟨17, 17, "force", .wo, 0, some 0, some 0⟩,
      ⟨16, 16, "copy_en", .rwl, 0, none, none⟩,
      ⟨15, 12, "zero", .ro, 0, some 0, some 0⟩,
      ⟨11, 0, "filter", .rwl, 0x64, none, none⟩]
  | .FIN_STATUS => [
      ⟨63, 63, "done", .ro, 0, none, some 0⟩,
      ⟨62, 62, "inprog", .ro, 0, none, some 0⟩,
      ⟨61, 58, "step", .ro, 0, none, some 0⟩,
      ⟨57, 56, "last", .ro, 0, none, none⟩,
      ⟨55, 51, "zero", .ro, 0, some 0, some 0⟩,
      ⟨50, 50, "img_copy", .ro, 0, none, none⟩,
      ⟨49, 49, "holdup", .ro, 0, none, none⟩,
      ⟨48, 48, "holdup_at", .ro, 0, none, none⟩,
      ⟨47, 32, "maxc_kl", .ro, 0, none, none⟩,
      ⟨31, 16, "img_seq", .ro, 0, none, none⟩,
      ⟨15, 0, "lost_chan", .ro, 0, none, none⟩]
  | .FIN_RESUME => [
      ⟨63, 2, "pc", .rw, 0, none, none⟩,
      ⟨1, 0, "zero", .ro, 0, some 0, some 0⟩]
  | .FIN_REGION => [
      ⟨63, 52, "zero", .ro, 0, some 0, some 0⟩,
      ⟨51, 20, "base", .rw, 0, none, none⟩,
      ⟨19, 1, "zero", .ro, 0, some 0, some 0⟩,
      ⟨0, 0, "valid", .rw, 0, none, none⟩]
  | .FIN_CX3 => [
      ⟨63, 1, "zero", .ro, 0, some 0, some 0⟩,
      ⟨0, 0, "done", .rw, 0, some 0, some 0⟩]
  | .FIN_COPY_CTL => [
      ⟨63, 52, "zero", .ro, 0, some 0, some 0⟩,
      ⟨51, 12, "prog", .rwl, 0, none, none⟩,
      ⟨11, 0, "ports", .rwl, 0, none, none⟩]
  | .FIN_RNG_SRC => [
      ⟨63, 63, "valid", .rwl, 0, none, none⟩,
      ⟨62, 52, "zero", .ro, 0, some 0, some 0⟩,
      ⟨51, 12, "src", .rwl, 0, none, none⟩,
      ⟨11, 0, "zero", .ro, 0, some 0, some 0⟩]
  | .FIN_RNG_DST => [
      ⟨51, 12, "dst", .rwl, 0, none, none⟩]
  | .FIN_RNG_LEN => [
      ⟨47, 12, "len", .rwl, 0, none, none⟩]
  | .CCH_CE_CFG => [
      ⟨63, 8, "zero", .ro, 0, some 0, some 0⟩,
      ⟨7, 0, "threshold", .rw, 0x10, none, some 0x10⟩]
  | .RAS_CFG => [
      ⟨63, 63, "lock", .rwl, 0, none, none⟩,
      ⟨62, 2, "zero", .ro, 0, some 0, some 0⟩,
      ⟨1, 0, "fatal", .rwl, 2, none, none⟩]
  | .RAS_THR => [
      ⟨63, 32, "zero", .ro, 0, some 0, some 0⟩,
      ⟨31, 0, "thr", .rwl, 0x4030408, none, none⟩]
  | .SYS_IRQ => [
      ⟨63, 63, "en", .rw, 0, some 0, some 0⟩,
      ⟨62, 25, "zero", .ro, 0, some 0, some 0⟩,
      ⟨24, 24, "lvl", .rw, 0, some 0, some 0⟩,
      ⟨23, 16, "core", .rw, 0, some 0, some 0⟩,
      ⟨15, 8, "zero", .ro, 0, some 0, some 0⟩,
      ⟨7, 0, "vector", .rw, 0, some 0, some 0⟩]
  | .TRNG_STATUS => [
      ⟨63, 48, "reseeds", .ro, 0, none, none⟩,
      ⟨47, 40, "rct", .ro, 0, none, none⟩,
      ⟨39, 32, "apt", .ro, 0, none, none⟩,
      ⟨31, 24, "recent", .ro, 0, some 0, some 0⟩,
      ⟨23, 2, "zero", .ro, 0, some 0, some 0⟩,
      ⟨1, 0, "state", .ro, 0, some 0, some 0⟩]
  | .TRNG_OUT => [
      ⟨63, 0, "data", .ro, 0, some 0, some 0⟩]
  | .SWU_POLICY => [
      ⟨63, 63, "lock", .rwl, 0, some 0, some 0⟩,
      ⟨62, 32, "zero", .ro, 0, some 0, some 0⟩,
      ⟨31, 16, "unit_kcycles", .rwl, 0x1000, some 0x1000, some 0x1000⟩,
      ⟨15, 3, "zero", .ro, 0, some 0, some 0⟩,
      ⟨2, 2, "sealed_ok", .rwl, 0, some 0, some 0⟩,
      ⟨1, 1, "allow_cx3", .rwl, 0, some 0, some 0⟩,
      ⟨0, 0, "allow_h", .rwl, 0, some 0, some 0⟩]
  | .SWU_SRC => [
      ⟨63, 52, "zero", .ro, 0, some 0, some 0⟩,
      ⟨51, 6, "addr", .rw, 0, some 0, some 0⟩,
      ⟨5, 0, "zero", .ro, 0, some 0, some 0⟩]
  | .SWU_CMD => [
      ⟨63, 26, "zero", .ro, 0, some 0, some 0⟩,
      ⟨25, 16, "wait_ms", .wo, 0, some 0, some 0⟩,
      ⟨15, 2, "zero", .ro, 0, some 0, some 0⟩,
      ⟨1, 0, "op", .wo, 0, some 0, some 0⟩]
  | .SWU_STATUS => [
      ⟨63, 48, "valid", .ro, 0, some 0, some 0⟩,
      ⟨47, 40, "abi", .ro, 0, some 0, some 0⟩,
      ⟨39, 32, "req", .ro, 0, some 0, some 0⟩,
      ⟨31, 20, "errword", .ro, 0, some 0, some 0⟩,
      ⟨19, 16, "err", .ro, 0, some 0, some 0⟩,
      ⟨15, 2, "zero", .ro, 0, some 0, some 0⟩,
      ⟨1, 1, "collide", .rw1c, 0, some 0, some 0⟩,
      ⟨0, 0, "busy", .ro, 0, some 0, some 0⟩]
  | .SWU_ID => [
      ⟨63, 32, "id", .ro, 0, some 0, some 0⟩,
      ⟨31, 0, "crc", .ro, 0, some 0, some 0⟩]
  | .CX3L_POLICY => [
      ⟨63, 63, "lock", .rwl, 0, some 0, some 0⟩,
      ⟨62, 1, "zero", .ro, 0, some 0, some 0⟩,
      ⟨0, 0, "allow", .rwl, 0, some 0, some 0⟩]
  | .CX3L_SRC => [
      ⟨51, 6, "addr", .rw, 0, some 0, some 0⟩]
  | .CX3L_CMD => [
      ⟨1, 0, "op", .wo, 0, some 0, some 0⟩]
  | .CX3L_STATUS => [
      ⟨63, 32, "id", .ro, 0, some 0, some 0⟩,
      ⟨31, 5, "zero", .ro, 0, some 0, some 0⟩,
      ⟨4, 4, "collide", .rw1c, 0, some 0, some 0⟩,
      ⟨3, 1, "err", .ro, 0, some 0, some 0⟩,
      ⟨0, 0, "busy", .ro, 0, some 0, some 0⟩]
  | .CX3_MBIN => [
      ⟨63, 0, "data", .rw, 0, some 0, some 0⟩]
  | .CX3_MBOUT => [
      ⟨63, 0, "data", .rw, 0, some 0, some 0⟩]
  | .CX3_MBDB => [
      ⟨63, 2, "zero", .ro, 0, some 0, some 0⟩,
      ⟨1, 1, "out", .rw1c, 0, some 0, some 0⟩,
      ⟨0, 0, "in", .rw1c, 0, some 0, some 0⟩]
  | .MUX_FN => [
      ⟨63, 63, "en", .rw, 0, some 0, some 0⟩,
      ⟨62, 58, "zero", .ro, 0, some 0, some 0⟩,
      ⟨57, 56, "mode", .rw, 0, some 0, some 0⟩,
      ⟨55, 30, "zero", .ro, 0, some 0, some 0⟩,
      ⟨29, 0, "pins", .rw, 0, some 0, some 0⟩]
  | .MUX_PULL => [
      ⟨63, 0, "pull", .rw, 0xaaaaaaaaaaaaaaaa, some 0xaaaaaaaaaaaaaaaa, some 0xaaaaaaaaaaaaaaaa⟩]
  | .MUX_STATUS => [
      ⟨63, 63, "lock", .rwl, 0, some 0, some 0⟩,
      ⟨62, 9, "zero", .ro, 0, some 0, some 0⟩,
      ⟨8, 8, "err", .rw1c, 0, some 0, some 0⟩,
      ⟨7, 4, "zero", .ro, 0, some 0, some 0⟩,
      ⟨3, 0, "fn", .ro, 0, some 0, some 0⟩]
  | .GPIO_DIR => [
      ⟨31, 0, "out", .rw, 0, some 0, some 0⟩]
  | .GPIO_OUT => [
      ⟨31, 0, "val", .rw, 0, some 0, some 0⟩]
  | .GPIO_IN => [
      ⟨31, 0, "val", .ro, 0, some 0, some 0⟩]
  | .GPIO_WAKE => [
      ⟨31, 0, "en", .rw, 0, none, none⟩]
  | .CXS_CTL => [
      ⟨63, 8, "zero", .ro, 0, some 0, some 0⟩,
      ⟨7, 7, "frozen", .ro, 0, some 0, some 0⟩,
      ⟨6, 6, "halted", .ro, 0, some 0, some 0⟩,
      ⟨5, 2, "zero", .ro, 0, some 0, some 0⟩,
      ⟨1, 1, "reset", .wo, 0, some 0, some 0⟩,
      ⟨0, 0, "hold", .rw, 0, none, none⟩]
  | .TC_DIRTY => [
      ⟨63, 48, "zero", .ro, 0, some 0, some 0⟩,
      ⟨47, 32, "l3", .ro, 0, some 0, some 0⟩,
      ⟨31, 16, "l2_c1", .ro, 0, some 0, some 0⟩,
      ⟨15, 0, "l2_c0", .ro, 0, some 0, some 0⟩]
  | .TC_WAYDIS0 => [
      ⟨63, 32, "zero", .ro, 0, some 0, some 0⟩,
      ⟨31, 24, "l1d_c1", .rw, 0, none, some 0⟩,
      ⟨23, 16, "l1i_c1", .rw, 0, none, some 0⟩,
      ⟨15, 8, "l1d_c0", .rw, 0, none, some 0⟩,
      ⟨7, 0, "l1i_c0", .rw, 0, none, some 0⟩]
  | .TC_WAYDIS1 => [
      ⟨63, 44, "zero", .ro, 0, some 0, some 0⟩,
      ⟨43, 32, "l3", .rw, 0, none, some 0⟩,
      ⟨31, 16, "l2_c1", .rw, 0, none, some 0⟩,
      ⟨15, 0, "l2_c0", .rw, 0, none, some 0⟩]
  | .TC_FREQ => [
      ⟨63, 24, "zero", .ro, 0, some 0, some 0⟩,
      ⟨23, 16, "actual", .ro, 0, some 0, some 0⟩,
      ⟨15, 8, "grant", .ro, 0, some 0, some 0⟩,
      ⟨7, 0, "target", .rw, 0, some 0, some 0⟩]
  | .TC_CSTATE => [
      ⟨63, 10, "zero", .ro, 0, some 0, some 0⟩,
      ⟨9, 8, "in_c3", .ro, 0, some 0, some 0⟩,
      ⟨7, 2, "zero", .ro, 0, some 0, some 0⟩,
      ⟨1, 0, "deep", .rw, 0, some 0, some 0⟩]
  | .TC_RST => [
      ⟨63, 3, "zero", .ro, 0, some 0, some 0⟩,
      ⟨2, 2, "release", .wo, 0, some 0, some 0⟩,
      ⟨1, 1, "busy", .ro, 0, some 0, some 0⟩,
      ⟨0, 0, "reset", .wo, 0, some 0, some 0⟩]
  | .NI_RT => [
      ⟨63, 16, "zero", .ro, 0, some 0, some 0⟩,
      ⟨15, 8, "wp", .rw, 0, none, some 0⟩,
      ⟨7, 2, "zero", .ro, 0, some 0, some 0⟩,
      ⟨1, 0, "kind", .rw, 0, none, none⟩]
  | .NI_WD_CFG => [
      ⟨63, 20, "zero", .ro, 0, some 0, some 0⟩,
      ⟨19, 0, "limit", .rw, 0x7d0, none, some 0x7d0⟩]
  | .NI_WD_LOG => [
      ⟨63, 63, "valid", .rw1c, 0, none, some 0⟩,
      ⟨62, 60, "kind", .ro, 0, none, some 0⟩,
      ⟨59, 48, "tid", .ro, 0, none, some 0⟩,
      ⟨47, 40, "peer", .ro, 0, none, some 0⟩,
      ⟨39, 32, "zero", .ro, 0, some 0, some 0⟩,
      ⟨31, 16, "count", .ro, 0, none, some 0⟩,
      ⟨15, 0, "zero", .ro, 0, some 0, some 0⟩]
  | .NI_RT_STATUS => [
      ⟨63, 16, "zero", .ro, 0, some 0, some 0⟩,
      ⟨15, 8, "entry", .ro, 0, some 0, some 0⟩,
      ⟨7, 4, "zero", .ro, 0, some 0, some 0⟩,
      ⟨3, 3, "reject", .rw1c, 0, some 0, some 0⟩,
      ⟨2, 0, "code", .ro, 0, some 0, some 0⟩]
  | .NI_PORT => [
      ⟨63, 32, "zero", .ro, 0, some 0, some 0⟩,
      ⟨31, 16, "discarded", .ro, 0, some 0, some 0⟩,
      ⟨15, 3, "zero", .ro, 0, some 0, some 0⟩,
      ⟨2, 0, "state", .ro, 0, some 0, some 0⟩]
  | .PRB_CTL => [
      ⟨63, 24, "zero", .ro, 0, some 0, some 0⟩,
      ⟨23, 19, "ports", .rw, 0, some 0, some 0⟩,
      ⟨18, 16, "planes", .rw, 0, some 0, some 0⟩,
      ⟨15, 14, "vns", .rw, 0, some 0, some 0⟩,
      ⟨13, 10, "chans", .rw, 0, some 0, some 0⟩,
      ⟨9, 5, "zero", .ro, 0, some 0, some 0⟩,
      ⟨4, 4, "addr", .rw, 0, some 0, some 0⟩,
      ⟨3, 3, "wrap", .rw, 0, some 0, some 0⟩,
      ⟨2, 2, "dram", .rw, 0, some 0, some 0⟩,
      ⟨1, 1, "trace", .rw, 0, some 0, some 0⟩,
      ⟨0, 0, "count", .rw, 0, some 0, some 0⟩]
  | .PRB_MATCH => [
      ⟨63, 56, "src", .rw, 0, some 0, some 0⟩,
      ⟨55, 48, "src_mask", .rw, 0, some 0, some 0⟩,
      ⟨47, 40, "dst", .rw, 0, some 0, some 0⟩,
      ⟨39, 32, "dst_mask", .rw, 0, some 0, some 0⟩,
      ⟨31, 26, "op", .rw, 0, some 0, some 0⟩,
      ⟨25, 20, "op_mask", .rw, 0, some 0, some 0⟩,
      ⟨19, 0, "zero", .ro, 0, some 0, some 0⟩]
  | .PRB_ALO => [
      ⟨63, 52, "zero", .ro, 0, some 0, some 0⟩,
      ⟨51, 6, "line", .rw, 0, some 0, some 0⟩,
      ⟨5, 0, "zero", .ro, 0, some 0, some 0⟩]
  | .PRB_AHI => [
      ⟨63, 52, "zero", .ro, 0, some 0, some 0⟩,
      ⟨51, 6, "line", .rw, 0, some 0, some 0⟩,
      ⟨5, 0, "zero", .ro, 0, some 0, some 0⟩]
  | .PRB_TRACE => [
      ⟨63, 52, "zero", .ro, 0, some 0, some 0⟩,
      ⟨51, 12, "base", .rw, 0, some 0, some 0⟩,
      ⟨11, 8, "size", .rw, 0, some 0, some 0⟩,
      ⟨7, 0, "zero", .ro, 0, some 0, some 0⟩]
  | .PRB_STATUS => [
      ⟨63, 63, "fault", .rw1c, 0, some 0, some 0⟩,
      ⟨62, 62, "full", .ro, 0, some 0, some 0⟩,
      ⟨61, 61, "lost", .rw1c, 0, some 0, some 0⟩,
      ⟨60, 21, "zero", .ro, 0, some 0, some 0⟩,
      ⟨20, 0, "wptr", .ro, 0, some 0, some 0⟩]
  | .PRB_CNT => [
      ⟨63, 48, "zero", .ro, 0, some 0, some 0⟩,
      ⟨47, 0, "count", .rw, 0, some 0, some 0⟩]
  | .PRB_SHD => [
      ⟨63, 0, "data", .ro, 0, some 0, some 0⟩]
  | .PRB_SHTAG => [
      ⟨63, 0, "data", .ro, 0, some 0, some 0⟩]
  | .MC_DIMM => [
      ⟨63, 48, "zero", .ro, 0, some 0, some 0⟩,
      ⟨47, 32, "usable_gib", .rw, 0, some 0, some 0⟩,
      ⟨31, 24, "rate", .rw, 0, some 0, some 0⟩,
      ⟨23, 20, "ranks", .rw, 0, some 0, some 0⟩,
      ⟨19, 18, "zero", .ro, 0, some 0, some 0⟩,
      ⟨17, 16, "dpc", .rw, 0, some 0, some 0⟩,
      ⟨15, 8, "zero", .ro, 0, some 0, some 0⟩,
      ⟨7, 4, "type", .rw, 0, some 0, some 0⟩,
      ⟨3, 1, "zero", .ro, 0, some 0, some 0⟩,
      ⟨0, 0, "present", .rw, 0, some 0, some 0⟩]
  | .MC_SCHED => [
      ⟨63, 48, "zero", .ro, 0, some 0, some 0⟩,
      ⟨47, 32, "age_ns", .rw, 0xfa0, some 0xfa0, some 0xfa0⟩,
      ⟨31, 27, "zero", .ro, 0, some 0, some 0⟩,
      ⟨26, 24, "cpu_share", .rw, 6, some 6, some 6⟩,
      ⟨23, 15, "zero", .ro, 0, some 0, some 0⟩,
      ⟨14, 8, "lwm", .rw, 0x10, some 0x10, some 0x10⟩,
      ⟨7, 7, "zero", .ro, 0, some 0, some 0⟩,
      ⟨6, 0, "hwm", .rw, 0x40, some 0x40, some 0x40⟩]
  | .MC_RH_CFG => [
      ⟨63, 18, "zero", .ro, 0, some 0, some 0⟩,
      ⟨17, 16, "radius", .rw, 1, some 1, some 1⟩,
      ⟨15, 0, "threshold", .rw, 0x7d0, some 0x7d0, some 0x7d0⟩]
  | .MC_RAS_CFG => [
      ⟨63, 33, "zero", .ro, 0, some 0, some 0⟩,
      ⟨32, 32, "spare", .rwl, 0, none, none⟩,
      ⟨31, 24, "bank_thr", .rw, 0x40, none, none⟩,
      ⟨23, 17, "zero", .ro, 0, some 0, some 0⟩,
      ⟨16, 16, "dscrub", .rw, 1, none, none⟩,
      ⟨15, 8, "patrol_h", .rw, 0x18, none, none⟩,
      ⟨7, 1, "zero", .ro, 0, some 0, some 0⟩,
      ⟨0, 0, "lock", .rwl, 0, none, none⟩]
  | .MC_LAT_TGT => [
      ⟨63, 16, "zero", .ro, 0, some 0, some 0⟩,
      ⟨15, 0, "target_ns", .rw, 0, none, none⟩]
  | .SW_CTL => [
      ⟨63, 1, "zero", .ro, 0, some 0, some 0⟩,
      ⟨0, 0, "run", .rw, 1, some 1, some 1⟩]
  | .SW_STATUS => [
      ⟨63, 24, "zero", .ro, 0, some 0, some 0⟩,
      ⟨23, 16, "inbox", .ro, 0, some 0, some 0⟩,
      ⟨15, 3, "zero", .ro, 0, some 0, some 0⟩,
      ⟨2, 2, "restart", .ro, 0, some 0, some 0⟩,
      ⟨1, 0, "state", .ro, 0, some 0, some 0⟩]
  | .SWQ_CTX => [
      ⟨63, 63, "world", .rw, 0, some 0, some 0⟩,
      ⟨62, 60, "region", .rw, 0, some 0, some 0⟩,
      ⟨59, 59, "hs_en", .rw, 0, some 0, some 0⟩,
      ⟨58, 58, "hs_lvl5", .rw, 0, some 0, some 0⟩,
      ⟨57, 57, "gs_en", .rw, 0, some 0, some 0⟩,
      ⟨56, 56, "gs_lvl5", .rw, 0, some 0, some 0⟩,
      ⟨55, 52, "zero", .ro, 0, some 0, some 0⟩,
      ⟨51, 40, "key_id", .rw, 0, some 0, some 0⟩,
      ⟨39, 32, "zero", .ro, 0, some 0, some 0⟩,
      ⟨31, 16, "ctx", .rw, 0, some 0, some 0⟩,
      ⟨15, 0, "asid", .rw, 0, some 0, some 0⟩]
  | .SWQ_GROOT => [
      ⟨63, 52, "zero", .ro, 0, some 0, some 0⟩,
      ⟨51, 12, "root", .rw, 0, some 0, some 0⟩,
      ⟨11, 0, "zero", .ro, 0, some 0, some 0⟩]
  | .SWQ_HROOT => [
      ⟨63, 52, "zero", .ro, 0, some 0, some 0⟩,
      ⟨51, 12, "root", .rw, 0, some 0, some 0⟩,
      ⟨11, 0, "zero", .ro, 0, some 0, some 0⟩]
  | .SWQ_PSTATE => [
      ⟨63, 52, "zero", .ro, 0, some 0, some 0⟩,
      ⟨51, 12, "base", .rw, 0, some 0, some 0⟩,
      ⟨11, 0, "zero", .ro, 0, some 0, some 0⟩]
  | .SWQ_CFG => [
      ⟨63, 56, "poll_us", .rw, 0xa, some 0xa, some 0xa⟩,
      ⟨55, 48, "susp_ms", .rw, 0x64, some 0x64, some 0x64⟩,
      ⟨47, 44, "sub_log2", .rw, 0, some 0, some 0⟩,
      ⟨43, 40, "rel_log2", .rw, 0, some 0, some 0⟩,
      ⟨39, 36, "res_log2", .rw, 0, some 0, some 0⟩,
      ⟨35, 21, "zero", .ro, 0, some 0, some 0⟩,
      ⟨20, 0, "pool_count", .rw, 0, some 0, some 0⟩]
  | .SWQ_CTL => [
      ⟨63, 63, "disabled", .ro, 0, some 0, some 0⟩,
      ⟨62, 60, "zero", .ro, 0, some 0, some 0⟩,
      ⟨59, 56, "bind_err", .ro, 0, some 0, some 0⟩,
      ⟨55, 48, "zero", .ro, 0, some 0, some 0⟩,
      ⟨47, 32, "dfree", .ro, 0, some 0, some 0⟩,
      ⟨31, 28, "nonowner", .ro, 0, some 0, some 0⟩,
      ⟨27, 20, "badrec", .ro, 0, some 0, some 0⟩,
      ⟨19, 3, "zero", .ro, 0, some 0, some 0⟩,
      ⟨2, 2, "reset", .wo, 0, some 0, some 0⟩,
      ⟨1, 1, "busy", .ro, 0, some 0, some 0⟩,
      ⟨0, 0, "enable", .rw, 0, some 0, some 0⟩]
  | .SWQ_IRQA => [
      ⟨63, 57, "zero", .ro, 0, some 0, some 0⟩,
      ⟨56, 2, "va", .rw, 0, some 0, some 0⟩,
      ⟨1, 0, "zero", .ro, 0, some 0, some 0⟩]
  | .SWQ_IRQD => [
      ⟨63, 34, "zero", .ro, 0, some 0, some 0⟩,
      ⟨33, 33, "done_en", .rw, 0, some 0, some 0⟩,
      ⟨32, 32, "err_en", .rw, 0, some 0, some 0⟩,
      ⟨31, 0, "data", .rw, 0, some 0, some 0⟩]
  | .SWQ_QCB => [
      ⟨63, 57, "zero", .ro, 0, some 0, some 0⟩,
      ⟨56, 6, "va", .rw, 0, some 0, some 0⟩,
      ⟨5, 0, "zero", .ro, 0, some 0, some 0⟩]
  | .SWQ_DB => [
      ⟨63, 0, "ring", .wo, 0, some 0, some 0⟩]
  | .SWQ_RELDB => [
      ⟨63, 0, "handle", .wo, 0, some 0, some 0⟩]
  | .IO_CFG => [
      ⟨63, 63, "lock", .rwl, 0, some 0, some 0⟩,
      ⟨62, 26, "zero", .ro, 0, some 0, some 0⟩,
      ⟨25, 25, "walloc", .rwl, 0, some 0, some 0⟩,
      ⟨24, 24, "l1", .rwl, 0, some 0, some 0⟩,
      ⟨23, 19, "zero", .ro, 0, some 0, some 0⟩,
      ⟨18, 16, "max_rate", .rwl, 6, some 6, some 6⟩,
      ⟨15, 12, "zero", .ro, 0, some 0, some 0⟩,
      ⟨11, 8, "bif", .rwl, 0, some 0, some 0⟩,
      ⟨7, 4, "zero", .ro, 0, some 0, some 0⟩,
      ⟨3, 0, "pers", .rwl, 0, some 0, some 0⟩]
  | .IO_RST => [
      ⟨63, 2, "zero", .ro, 0, some 0, some 0⟩,
      ⟨1, 1, "busy", .ro, 0, some 0, some 0⟩,
      ⟨0, 0, "reset", .wo, 0, some 0, some 0⟩]
  | .IO_LINK => [
      ⟨63, 63, "up", .ro, 0, some 0, some 0⟩,
      ⟨62, 60, "rate", .ro, 0, some 0, some 0⟩,
      ⟨59, 56, "width", .ro, 0, some 0, some 0⟩,
      ⟨55, 55, "cxl", .ro, 0, some 0, some 0⟩,
      ⟨54, 54, "flit", .ro, 0, some 0, some 0⟩,
      ⟨53, 48, "zero", .ro, 0, some 0, some 0⟩,
      ⟨47, 32, "replay_us", .ro, 0, some 0, some 0⟩,
      ⟨31, 16, "downs", .ro, 0, none, some 0⟩,
      ⟨15, 0, "zero", .ro, 0, some 0, some 0⟩]
  | .IO_CTO => [
      ⟨63, 52, "zero", .ro, 0, some 0, some 0⟩,
      ⟨51, 32, "cto_eff", .ro, 0x384, some 0x384, some 0x384⟩,
      ⟨31, 20, "zero", .ro, 0, some 0, some 0⟩,
      ⟨19, 0, "cto_us", .rw, 0x384, some 0x384, some 0x384⟩]
  | .IO_SL => [
      ⟨63, 49, "zero", .ro, 0, some 0, some 0⟩,
      ⟨48, 48, "nc", .ro, 0, some 0, some 0⟩,
      ⟨47, 40, "p_hi", .ro, 0, some 0, some 0⟩,
      ⟨39, 32, "p_lo", .ro, 0, some 0, some 0⟩,
      ⟨31, 24, "ver", .ro, 0, some 0, some 0⟩,
      ⟨23, 4, "zero", .ro, 0, some 0, some 0⟩,
      ⟨3, 0, "feat", .ro, 0, some 0, some 0⟩]
  | .IOTU_ROOT => [
      ⟨63, 52, "zero", .ro, 0, some 0, some 0⟩,
      ⟨51, 12, "base", .rw, 0, some 0, some 0⟩,
      ⟨11, 1, "zero", .ro, 0, some 0, some 0⟩,
      ⟨0, 0, "en", .rw, 0, some 0, some 0⟩]
  | .IOTU_MSI => [
      ⟨63, 52, "zero", .ro, 0, some 0, some 0⟩,
      ⟨51, 12, "base", .rw, 0, some 0, some 0⟩,
      ⟨11, 0, "zero", .ro, 0, some 0, some 0⟩]
  | .IOTU_FAULT => [
      ⟨63, 63, "valid", .rw1c, 0, some 0, some 0⟩,
      ⟨62, 56, "cause", .ro, 0, some 0, some 0⟩,
      ⟨55, 52, "zero", .ro, 0, some 0, some 0⟩,
      ⟨51, 12, "page", .ro, 0, some 0, some 0⟩,
      ⟨11, 0, "count", .ro, 0, some 0, some 0⟩]
  | .IOTU_RID => [
      ⟨63, 16, "zero", .ro, 0, some 0, some 0⟩,
      ⟨15, 0, "rid", .ro, 0, some 0, some 0⟩]
  | .EP_CTL => [
      ⟨63, 63, "lock", .rwl, 0, some 0, some 0⟩,
      ⟨62, 33, "zero", .ro, 0, some 0, some 0⟩,
      ⟨32, 32, "err", .rw1c, 0, some 0, some 0⟩,
      ⟨31, 17, "zero", .ro, 0, some 0, some 0⟩,
      ⟨16, 16, "active", .rw, 0, some 0, some 0⟩,
      ⟨15, 11, "zero", .ro, 0, some 0, some 0⟩,
      ⟨10, 0, "total_vfs", .rwl, 0x400, some 0x400, some 0x400⟩]
  | .EP_SEND => [
      ⟨63, 43, "zero", .ro, 0, some 0, some 0⟩,
      ⟨42, 32, "func", .wo, 0, some 0, some 0⟩,
      ⟨31, 11, "zero", .ro, 0, some 0, some 0⟩,
      ⟨10, 0, "vector", .wo, 0, some 0, some 0⟩]
  | .EP_FLR_PEND => [
      ⟨63, 0, "pend", .rw1c, 0, some 0, some 0⟩]
  | .EP_VF0 => [
      ⟨63, 63, "valid", .rw, 0, some 0, some 0⟩,
      ⟨62, 42, "zero", .ro, 0, some 0, some 0⟩,
      ⟨41, 32, "queue", .rw, 0, some 0, some 0⟩,
      ⟨31, 12, "irq", .rw, 0, some 0, some 0⟩,
      ⟨11, 0, "zero", .ro, 0, some 0, some 0⟩]
  | .EP_VF1 => [
      ⟨63, 52, "zero", .ro, 0, some 0, some 0⟩,
      ⟨51, 11, "mbox", .rw, 0, some 0, some 0⟩,
      ⟨10, 0, "zero", .ro, 0, some 0, some 0⟩]
  | .EP_RBASE => [
      ⟨63, 0, "base", .rw, 0, some 0, some 0⟩]
  | .EP_RCFG => [
      ⟨63, 63, "en", .rw, 0, some 0, some 0⟩,
      ⟨62, 58, "zero", .ro, 0, some 0, some 0⟩,
      ⟨57, 48, "log2", .rw, 0, some 0, some 0⟩,
      ⟨47, 42, "vector", .rw, 0, some 0, some 0⟩,
      ⟨41, 32, "zero", .ro, 0, some 0, some 0⟩,
      ⟨31, 16, "ctx", .rw, 0, some 0, some 0⟩,
      ⟨15, 11, "zero", .ro, 0, some 0, some 0⟩,
      ⟨10, 0, "func", .rw, 0, some 0, some 0⟩]
  | .EP_RTAIL => [
      ⟨31, 0, "tail", .rw, 0, some 0, some 0⟩]
  | .EP_RHEAD => [
      ⟨31, 0, "head", .ro, 0, some 0, some 0⟩]
  | .EP_RSTAT => [
      ⟨63, 63, "err", .rw1c, 0, some 0, some 0⟩,
      ⟨62, 8, "zero", .ro, 0, some 0, some 0⟩,
      ⟨7, 0, "code", .ro, 0, some 0, some 0⟩]
  | .EP_MBOX => [
      ⟨63, 32, "in", .rw1c, 0, some 0, some 0⟩,
      ⟨31, 16, "out", .rw, 0, some 0, some 0⟩,
      ⟨15, 1, "zero", .ro, 0, some 0, some 0⟩,
      ⟨0, 0, "send", .wo, 0, some 0, some 0⟩]
  | .ERR_STATUS => [
      ⟨63, 63, "valid", .rw1c, 0, none, none⟩,
      ⟨62, 62, "over", .ro, 0, none, none⟩,
      ⟨61, 60, "class", .ro, 0, none, none⟩,
      ⟨59, 59, "addrv", .ro, 0, none, none⟩,
      ⟨58, 58, "miscv", .ro, 0, none, none⟩,
      ⟨57, 57, "inj", .ro, 0, none, none⟩,
      ⟨56, 56, "sealed", .ro, 0, none, none⟩,
      ⟨55, 48, "stop", .ro, 0, none, none⟩,
      ⟨47, 40, "unit", .ro, 0, none, none⟩,
      ⟨39, 32, "type", .ro, 0, none, none⟩,
      ⟨31, 16, "cec", .ro, 0, none, none⟩,
      ⟨15, 0, "info", .ro, 0, none, none⟩]
  | .ERR_ADDR => [
      ⟨63, 0, "data", .ro, 0, none, none⟩]
  | .ERR_MISC => [
      ⟨63, 0, "data", .ro, 0, none, none⟩]
  | .ERR_TIME => [
      ⟨63, 0, "data", .ro, 0, none, none⟩]
  | .ERR_CTL => [
      ⟨63, 48, "zero", .ro, 0, some 0, some 0⟩,
      ⟨47, 32, "lost", .ro, 0, none, none⟩,
      ⟨31, 4, "zero", .ro, 0, some 0, some 0⟩,
      ⟨3, 0, "sig", .rw, 0xf, some 0xf, some 0xf⟩]
  | .ERR_INJ => [
      ⟨63, 63, "arm", .rw, 0, some 0, some 0⟩,
      ⟨62, 59, "zero", .ro, 0, some 0, some 0⟩,
      ⟨58, 56, "kind", .rw, 0, some 0, some 0⟩,
      ⟨55, 48, "unit", .rw, 0, some 0, some 0⟩,
      ⟨47, 1, "zero", .ro, 0, some 0, some 0⟩,
      ⟨0, 0, "match", .rw, 0, some 0, some 0⟩]
  | .ERR_INJA => [
      ⟨63, 0, "data", .rw, 0, some 0, some 0⟩]
  | .UNC_CTL => [
      ⟨63, 63, "int", .rw, 0, some 0, some 0⟩,
      ⟨62, 56, "zero", .ro, 0, some 0, some 0⟩,
      ⟨55, 48, "vec", .rw, 0, some 0, some 0⟩,
      ⟨47, 40, "core", .rw, 0, some 0, some 0⟩,
      ⟨39, 13, "zero", .ro, 0, some 0, some 0⟩,
      ⟨12, 8, "ovf", .rw1c, 0, some 0, some 0⟩,
      ⟨7, 1, "zero", .ro, 0, some 0, some 0⟩,
      ⟨0, 0, "lfrz", .rw, 0, some 0, some 0⟩]
  | .UNC_SEL => [
      ⟨40, 40, "edge", .rw, 0, some 0, some 0⟩,
      ⟨31, 24, "umask", .rw, 0, some 0, some 0⟩,
      ⟨9, 0, "event", .rw, 0, some 0, some 0⟩]
  | .UNC_CNT => [
      ⟨47, 0, "count", .rw, 0, some 0, some 0⟩]
  | .UNC_SHD => [
      ⟨47, 0, "count", .ro, 0, some 0, some 0⟩]
  | .UNC_CYC => [
      ⟨63, 0, "count", .rw, 0, some 0, some 0⟩]
  | .UNC_CYCSHD => [
      ⟨63, 0, "count", .ro, 0, some 0, some 0⟩]
  | .UNC_SHTAG => [
      ⟨4, 0, "tag", .ro, 0, some 0, some 0⟩]

/-- The place of a register: its block, the offset of instance 0, the distance between instances and their number. -/
structure Place where
  block : Block
  off : Nat
  stride : Nat
  count : Nat
  deriving DecidableEq, Repr

/-- Where each register stands (offsets within the owning stop's window; a bank or uncore register counts from the base
of its block). -/
def RegName.place : RegName → Place
  | .ID_PART => ⟨.sv0, 0x0, 0x0, 1⟩
  | .ID_PARAM0 => ⟨.sv0, 0x8, 0x0, 1⟩
  | .ID_PARAM1 => ⟨.sv0, 0x10, 0x0, 1⟩
  | .ID_PARAM2 => ⟨.sv0, 0x18, 0x0, 1⟩
  | .AVAIL_TILE_LO => ⟨.sv0, 0x20, 0x0, 1⟩
  | .AVAIL_TILE_HI => ⟨.sv0, 0x28, 0x0, 1⟩
  | .AVAIL_MEM => ⟨.sv0, 0x30, 0x0, 1⟩
  | .AVAIL_IO => ⟨.sv0, 0x38, 0x0, 1⟩
  | .AVAIL_WAYS => ⟨.sv0, 0x40, 0x0, 1⟩
  | .STRAP_STATUS => ⟨.sv0, 0x50, 0x0, 1⟩
  | .STOP_ID => ⟨.stop, 0xfffff8, 0x0, 1⟩
  | .SAM_STATUS => ⟨.sv0, 0x1000, 0x0, 1⟩
  | .CCH_MODE => ⟨.sv0, 0x1100, 0x0, 1⟩
  | .FAB_BYPASS => ⟨.sv0, 0x1200, 0x0, 1⟩
  | .SAM_RADDR => ⟨.sv0, 0x1400, 0x10, 8⟩
  | .SAM_RCFG => ⟨.sv0, 0x1408, 0x10, 8⟩
  | .SAM_ABASE => ⟨.sv0, 0x1800, 0x10, 32⟩
  | .SAM_ACFG => ⟨.sv0, 0x1808, 0x10, 32⟩
  | .IOTU_INV => ⟨.sv0, 0x2000, 0x0, 1⟩
  | .IOTU_INVA => ⟨.sv0, 0x2008, 0x0, 1⟩
  | .SEC_DBG_EN => ⟨.sv0, 0x200100, 0x0, 1⟩
  | .POT_BASE => ⟨.sv0, 0x200200, 0x0, 1⟩
  | .POT_LIMIT => ⟨.sv0, 0x200208, 0x0, 1⟩
  | .POT_INV => ⟨.sv0, 0x200210, 0x0, 1⟩
  | .PV_REQ => ⟨.sv0, 0x200300, 0x0, 1⟩
  | .PV_DST => ⟨.sv0, 0x200308, 0x0, 1⟩
  | .PV_RSP => ⟨.sv0, 0x200310, 0x0, 1⟩
  | .KEY_DATA => ⟨.sv0, 0x200400, 0x8, 8⟩
  | .KEY_CMD => ⟨.sv0, 0x200440, 0x0, 1⟩
  | .KEY_STATUS => ⟨.sv0, 0x200448, 0x0, 1⟩
  | .KEY_EPOCH => ⟨.sv0, 0x200450, 0x0, 1⟩
  | .SEC_ALM_CFG => ⟨.sv0, 0x200500, 0x8, 8⟩
  | .SEC_ALM_STATUS => ⟨.sv0, 0x200540, 0x0, 1⟩
  | .SEC_ALM_LOG => ⟨.sv0, 0x200548, 0x0, 1⟩
  | .SEC_INJ_EN => ⟨.sv0, 0x200560, 0x0, 1⟩
  | .SEC_DBG_TOK => ⟨.sv0, 0x200600, 0x8, 32⟩
  | .SEC_DBG_NONCE => ⟨.sv0, 0x200700, 0x8, 4⟩
  | .SEC_DBG_CMD => ⟨.sv0, 0x200720, 0x0, 1⟩
  | .SEC_DEVID => ⟨.sv0, 0x200730, 0x8, 2⟩
  | .ERG_GCTL => ⟨.sv0, 0x200800, 0x0, 1⟩
  | .BOOT_STATUS => ⟨.sv0, 0x300000, 0x0, 1⟩
  | .FUSE_LOCK => ⟨.sv0, 0x300008, 0x0, 1⟩
  | .BOOT_RCV_ADDR => ⟨.sv0, 0x300010, 0x0, 1⟩
  | .BOOT_RCV_DATA => ⟨.sv0, 0x300018, 0x0, 1⟩
  | .BOOT_RCV_CMD => ⟨.sv0, 0x300020, 0x0, 1⟩
  | .PWR_RDY => ⟨.sv1, 0x100, 0x0, 1⟩
  | .PWR_DOM_CTL => ⟨.sv1, 0x108, 0x0, 1⟩
  | .PWR_PKG_CFG => ⟨.sv1, 0x110, 0x0, 1⟩
  | .PWR_PKG_REQ => ⟨.sv1, 0x118, 0x0, 1⟩
  | .PWR_PKG_STATUS => ⟨.sv1, 0x120, 0x0, 1⟩
  | .AO_TIMER => ⟨.sv1, 0x128, 0x0, 1⟩
  | .PWR_WAKE => ⟨.sv1, 0x130, 0x0, 1⟩
  | .PWR_RST => ⟨.sv1, 0x138, 0x0, 1⟩
  | .PWR_THERM => ⟨.sv1, 0x140, 0x0, 1⟩
  | .DB_CFG => ⟨.sv1, 0x2000, 0x0, 1⟩
  | .DB_STATUS => ⟨.sv1, 0x2008, 0x0, 1⟩
  | .FIN_CFG => ⟨.sv1, 0x3000, 0x0, 1⟩
  | .FIN_STATUS => ⟨.sv1, 0x3008, 0x0, 1⟩
  | .FIN_RESUME => ⟨.sv1, 0x3010, 0x0, 1⟩
  | .FIN_REGION => ⟨.sv1, 0x3018, 0x0, 1⟩
  | .FIN_CX3 => ⟨.sv1, 0x3020, 0x0, 1⟩
  | .FIN_COPY_CTL => ⟨.sv1, 0x3028, 0x0, 1⟩
  | .FIN_RNG_SRC => ⟨.sv1, 0x3100, 0x18, 16⟩
  | .FIN_RNG_DST => ⟨.sv1, 0x3108, 0x18, 16⟩
  | .FIN_RNG_LEN => ⟨.sv1, 0x3110, 0x18, 16⟩
  | .CCH_CE_CFG => ⟨.sv2, 0x3000, 0x0, 1⟩
  | .RAS_CFG => ⟨.sv2, 0x3008, 0x0, 1⟩
  | .RAS_THR => ⟨.sv2, 0x3010, 0x0, 1⟩
  | .SYS_IRQ => ⟨.sv2, 0x4000, 0x8, 3⟩
  | .TRNG_STATUS => ⟨.sv2, 0x5000, 0x0, 1⟩
  | .TRNG_OUT => ⟨.sv2, 0x5008, 0x0, 1⟩
  | .SWU_POLICY => ⟨.sv3, 0x4000, 0x0, 1⟩
  | .SWU_SRC => ⟨.sv3, 0x4008, 0x0, 1⟩
  | .SWU_CMD => ⟨.sv3, 0x4010, 0x0, 1⟩
  | .SWU_STATUS => ⟨.sv3, 0x4018, 0x0, 1⟩
  | .SWU_ID => ⟨.sv3, 0x4020, 0x0, 1⟩
  | .CX3L_POLICY => ⟨.sv3, 0x5000, 0x0, 1⟩
  | .CX3L_SRC => ⟨.sv3, 0x5008, 0x0, 1⟩
  | .CX3L_CMD => ⟨.sv3, 0x5010, 0x0, 1⟩
  | .CX3L_STATUS => ⟨.sv3, 0x5018, 0x0, 1⟩
  | .CX3_MBIN => ⟨.sv3, 0x6000, 0x8, 8⟩
  | .CX3_MBOUT => ⟨.sv3, 0x6040, 0x8, 8⟩
  | .CX3_MBDB => ⟨.sv3, 0x6080, 0x0, 1⟩
  | .MUX_FN => ⟨.sv3, 0x7000, 0x8, 10⟩
  | .MUX_PULL => ⟨.sv3, 0x7080, 0x0, 1⟩
  | .MUX_STATUS => ⟨.sv3, 0x7088, 0x0, 1⟩
  | .GPIO_DIR => ⟨.sv3, 0x7090, 0x0, 1⟩
  | .GPIO_OUT => ⟨.sv3, 0x7098, 0x0, 1⟩
  | .GPIO_IN => ⟨.sv3, 0x70a0, 0x0, 1⟩
  | .GPIO_WAKE => ⟨.sv3, 0x70a8, 0x0, 1⟩
  | .CXS_CTL => ⟨.sv, 0x8000, 0x0, 1⟩
  | .TC_DIRTY => ⟨.tile, 0xc00100, 0x0, 1⟩
  | .TC_WAYDIS0 => ⟨.tile, 0xc00108, 0x0, 1⟩
  | .TC_WAYDIS1 => ⟨.tile, 0xc00110, 0x0, 1⟩
  | .TC_FREQ => ⟨.tile, 0xc00200, 0x0, 1⟩
  | .TC_CSTATE => ⟨.tile, 0xc00208, 0x0, 1⟩
  | .TC_RST => ⟨.tile, 0xc00210, 0x0, 1⟩
  | .NI_RT => ⟨.stop, 0xff0000, 0x8, 256⟩
  | .NI_WD_CFG => ⟨.stop, 0xff0800, 0x0, 1⟩
  | .NI_WD_LOG => ⟨.stop, 0xff0808, 0x0, 1⟩
  | .NI_RT_STATUS => ⟨.stop, 0xff0810, 0x0, 1⟩
  | .NI_PORT => ⟨.stop, 0xff0818, 0x0, 1⟩
  | .PRB_CTL => ⟨.stop, 0xff1000, 0x0, 1⟩
  | .PRB_MATCH => ⟨.stop, 0xff1008, 0x0, 1⟩
  | .PRB_ALO => ⟨.stop, 0xff1010, 0x0, 1⟩
  | .PRB_AHI => ⟨.stop, 0xff1018, 0x0, 1⟩
  | .PRB_TRACE => ⟨.stop, 0xff1020, 0x0, 1⟩
  | .PRB_STATUS => ⟨.stop, 0xff1028, 0x0, 1⟩
  | .PRB_CNT => ⟨.stop, 0xff1030, 0x0, 1⟩
  | .PRB_SHD => ⟨.stop, 0xff1038, 0x0, 1⟩
  | .PRB_SHTAG => ⟨.stop, 0xff1040, 0x0, 1⟩
  | .MC_DIMM => ⟨.mc, 0x0, 0x0, 1⟩
  | .MC_SCHED => ⟨.mc, 0x100, 0x0, 1⟩
  | .MC_RH_CFG => ⟨.mc, 0x200, 0x0, 1⟩
  | .MC_RAS_CFG => ⟨.mc, 0x300, 0x0, 1⟩
  | .MC_LAT_TGT => ⟨.mc, 0x1000, 0x8, 86⟩
  | .SW_CTL => ⟨.mc, 0xf0000, 0x0, 1⟩
  | .SW_STATUS => ⟨.mc, 0xf0008, 0x0, 1⟩
  | .SWQ_CTX => ⟨.mc, 0x100000, 0x40, 64⟩
  | .SWQ_GROOT => ⟨.mc, 0x100008, 0x40, 64⟩
  | .SWQ_HROOT => ⟨.mc, 0x100010, 0x40, 64⟩
  | .SWQ_PSTATE => ⟨.mc, 0x100018, 0x40, 64⟩
  | .SWQ_CFG => ⟨.mc, 0x100020, 0x40, 64⟩
  | .SWQ_CTL => ⟨.mc, 0x100028, 0x40, 64⟩
  | .SWQ_IRQA => ⟨.mc, 0x100030, 0x40, 64⟩
  | .SWQ_IRQD => ⟨.mc, 0x100038, 0x40, 64⟩
  | .SWQ_QCB => ⟨.mc, 0x180000, 0x8, 64⟩
  | .SWQ_DB => ⟨.mc, 0x200000, 0x1000, 64⟩
  | .SWQ_RELDB => ⟨.mc, 0x200008, 0x1000, 64⟩
  | .IO_CFG => ⟨.io, 0x0, 0x0, 1⟩
  | .IO_RST => ⟨.io, 0x8, 0x0, 1⟩
  | .IO_LINK => ⟨.io, 0x100, 0x8, 4⟩
  | .IO_CTO => ⟨.io, 0x140, 0x0, 1⟩
  | .IO_SL => ⟨.io, 0x200, 0x0, 1⟩
  | .IOTU_ROOT => ⟨.io, 0x10000, 0x0, 1⟩
  | .IOTU_MSI => ⟨.io, 0x10008, 0x0, 1⟩
  | .IOTU_FAULT => ⟨.io, 0x10010, 0x0, 1⟩
  | .IOTU_RID => ⟨.io, 0x10018, 0x0, 1⟩
  | .EP_CTL => ⟨.ep, 0x100000, 0x0, 1⟩
  | .EP_SEND => ⟨.ep, 0x100008, 0x0, 1⟩
  | .EP_FLR_PEND => ⟨.io0, 0x100100, 0x8, 17⟩
  | .EP_VF0 => ⟨.io0, 0x140000, 0x10, 1025⟩
  | .EP_VF1 => ⟨.io0, 0x140008, 0x10, 1025⟩
  | .EP_RBASE => ⟨.ep, 0x180000, 0x40, 256⟩
  | .EP_RCFG => ⟨.ep, 0x180008, 0x40, 256⟩
  | .EP_RTAIL => ⟨.ep, 0x180010, 0x40, 256⟩
  | .EP_RHEAD => ⟨.ep, 0x180018, 0x40, 256⟩
  | .EP_RSTAT => ⟨.ep, 0x180020, 0x40, 256⟩
  | .EP_MBOX => ⟨.ep, 0x1c0000, 0x8, 1025⟩
  | .ERR_STATUS => ⟨.bank, 0x0, 0x20, 4⟩
  | .ERR_ADDR => ⟨.bank, 0x8, 0x20, 4⟩
  | .ERR_MISC => ⟨.bank, 0x10, 0x20, 4⟩
  | .ERR_TIME => ⟨.bank, 0x18, 0x20, 4⟩
  | .ERR_CTL => ⟨.bank, 0x80, 0x0, 1⟩
  | .ERR_INJ => ⟨.bank, 0x88, 0x0, 1⟩
  | .ERR_INJA => ⟨.bank, 0x90, 0x0, 1⟩
  | .UNC_CTL => ⟨.unc, 0x0, 0x0, 1⟩
  | .UNC_SEL => ⟨.unc, 0x8, 0x8, 4⟩
  | .UNC_CNT => ⟨.unc, 0x28, 0x8, 4⟩
  | .UNC_SHD => ⟨.unc, 0x48, 0x8, 4⟩
  | .UNC_CYC => ⟨.unc, 0x68, 0x0, 1⟩
  | .UNC_CYCSHD => ⟨.unc, 0x70, 0x0, 1⟩
  | .UNC_SHTAG => ⟨.unc, 0x78, 0x0, 1⟩

/-- Every register name, in table order. -/
def RegName.all : List RegName := [
  .ID_PART, .ID_PARAM0, .ID_PARAM1, .ID_PARAM2, .AVAIL_TILE_LO, .AVAIL_TILE_HI, .AVAIL_MEM, .AVAIL_IO, .AVAIL_WAYS,
  .STRAP_STATUS, .STOP_ID, .SAM_STATUS, .CCH_MODE, .FAB_BYPASS, .SAM_RADDR, .SAM_RCFG, .SAM_ABASE, .SAM_ACFG,
  .IOTU_INV, .IOTU_INVA, .SEC_DBG_EN, .POT_BASE, .POT_LIMIT, .POT_INV, .PV_REQ, .PV_DST, .PV_RSP, .KEY_DATA,
  .KEY_CMD, .KEY_STATUS, .KEY_EPOCH, .SEC_ALM_CFG, .SEC_ALM_STATUS, .SEC_ALM_LOG, .SEC_INJ_EN, .SEC_DBG_TOK,
  .SEC_DBG_NONCE, .SEC_DBG_CMD, .SEC_DEVID, .ERG_GCTL, .BOOT_STATUS, .FUSE_LOCK, .BOOT_RCV_ADDR, .BOOT_RCV_DATA,
  .BOOT_RCV_CMD, .PWR_RDY, .PWR_DOM_CTL, .PWR_PKG_CFG, .PWR_PKG_REQ, .PWR_PKG_STATUS, .AO_TIMER, .PWR_WAKE, .PWR_RST,
  .PWR_THERM, .DB_CFG, .DB_STATUS, .FIN_CFG, .FIN_STATUS, .FIN_RESUME, .FIN_REGION, .FIN_CX3, .FIN_COPY_CTL,
  .FIN_RNG_SRC, .FIN_RNG_DST, .FIN_RNG_LEN, .CCH_CE_CFG, .RAS_CFG, .RAS_THR, .SYS_IRQ, .TRNG_STATUS, .TRNG_OUT,
  .SWU_POLICY, .SWU_SRC, .SWU_CMD, .SWU_STATUS, .SWU_ID, .CX3L_POLICY, .CX3L_SRC, .CX3L_CMD, .CX3L_STATUS, .CX3_MBIN,
  .CX3_MBOUT, .CX3_MBDB, .MUX_FN, .MUX_PULL, .MUX_STATUS, .GPIO_DIR, .GPIO_OUT, .GPIO_IN, .GPIO_WAKE, .CXS_CTL,
  .TC_DIRTY, .TC_WAYDIS0, .TC_WAYDIS1, .TC_FREQ, .TC_CSTATE, .TC_RST, .NI_RT, .NI_WD_CFG, .NI_WD_LOG, .NI_RT_STATUS,
  .NI_PORT, .PRB_CTL, .PRB_MATCH, .PRB_ALO, .PRB_AHI, .PRB_TRACE, .PRB_STATUS, .PRB_CNT, .PRB_SHD, .PRB_SHTAG,
  .MC_DIMM, .MC_SCHED, .MC_RH_CFG, .MC_RAS_CFG, .MC_LAT_TGT, .SW_CTL, .SW_STATUS, .SWQ_CTX, .SWQ_GROOT, .SWQ_HROOT,
  .SWQ_PSTATE, .SWQ_CFG, .SWQ_CTL, .SWQ_IRQA, .SWQ_IRQD, .SWQ_QCB, .SWQ_DB, .SWQ_RELDB, .IO_CFG, .IO_RST, .IO_LINK,
  .IO_CTO, .IO_SL, .IOTU_ROOT, .IOTU_MSI, .IOTU_FAULT, .IOTU_RID, .EP_CTL, .EP_SEND, .EP_FLR_PEND, .EP_VF0, .EP_VF1,
  .EP_RBASE, .EP_RCFG, .EP_RTAIL, .EP_RHEAD, .EP_RSTAT, .EP_MBOX, .ERR_STATUS, .ERR_ADDR, .ERR_MISC, .ERR_TIME,
  .ERR_CTL, .ERR_INJ, .ERR_INJA, .UNC_CTL, .UNC_SEL, .UNC_CNT, .UNC_SHD, .UNC_CYC, .UNC_CYCSHD, .UNC_SHTAG]

end Sys2Proof.Machine
end

