-- ==== Sys2Proof/Machine/State.lean ====
section
/-! DEFINITION. The state of the KT-9144 as plain data, its faults and refusals, and the state after Cold reset. -/

namespace Sys2Proof.Machine

/-! ## Main cores (chapters 02, 03, 04 and 16) -/

/-- What a core is doing: held in reset, running, waiting in WFI with its clock gated (Feather, C1), entering C3, in C3,
halted by R101, halted by the debug port (R130), or stopped by Finish or a Tile reset (R465, R530). -/
inductive Run where
  | held | running | feather | c3Entry | c3 | halted | debugHalt | stopped
  deriving DecidableEq, Repr

/-- The memory type of an access (R114, R694). -/
inductive MemType where
  | writeBack | nonCacheable | device
  deriving DecidableEq, Repr

/-- The kind of an access, as X_CAUSE.kind codes it (Table 03-5). -/
inductive Access where
  | read | write | fetch
  deriving DecidableEq, Repr

/-- What a memory instruction of a main core does once its line or device answers (02.6, 02.8, 02.9). Register fields are
numbers of the g or v file. -/
inductive MemKind where
  /-- A load of `size` bytes into g register `rt`, sign-extended or not. -/
  | load (rt : Nat) (sext : Bool)
  /-- LDP. -/
  | loadPair (rt : Nat)
  /-- VLD, or VLDM with the byte lanes it may access and write. -/
  | loadVec (vd : Nat) (lanes : W32)
  /-- A store of bytes, given per offset from the address. -/
  | store (bytes : List (Nat × Byte))
  /-- ATOM: the operation, destination, operand. -/
  | atom (op : BitVec 4) (rd : Nat) (operand : W64)
  /-- LR. -/
  | lr (rd : Nat)
  /-- SC: the destination and the bytes it stores. -/
  | sc (rd : Nat) (bytes : List (Nat × Byte))
  /-- DC.CLEAN, DC.CLEANINV and DC.INV (0, 1, 2); DC.ZERO is a store of 64 zeros. -/
  | dc (op : Nat)
  /-- RAND: the two destinations. -/
  | rand (ra rb : Nat)
  deriving DecidableEq, Repr

/-- A memory instruction of a main core: its kind, virtual address, size in bytes, streaming hint, whether device memory takes
it (R64, R68), and whether earlier stores must be visible first (R72). -/
structure MemOp where
  kind : MemKind
  va : W64
  size : Nat
  s : Bool
  devOk : Bool
  acq : Bool
  deriving DecidableEq, Repr

/-- What a waiting memory instruction waits for: the walk of a page (R152), a line in the L1D, in ownership or not (04.4), a
device or register answer (R587), with the first half of an LDP, or to become non-speculative (R163). -/
inductive Phase where
  | walk | line (own : Bool) | dev (first : Option W64) | held
  deriving DecidableEq, Repr

/-- The instruction a core waits on, with the TLB and source codes of Table 16-4 it has met. -/
structure Wait where
  op : MemOp
  phase : Phase
  tlb : Nat
  src : Nat
  deriving DecidableEq, Repr

/-- A retired store in the store queue (R155): its physical bytes, the address and size, the key ID, and whether it goes past the
caches (device or non-cacheable memory). -/
structure StoreEnt where
  bytes : List (Nat × Byte)
  pa : Nat
  size : Nat
  key : Nat
  va : W64
  dev : Bool
  deriving DecidableEq, Repr

/-- The regime a translation belongs to (03.6, 03.8): untranslated, guest stages of the open world, H's own stage, or a
partition. -/
inductive Regime where
  | untranslated | guest (vmid : Nat) | own | part (p : Nat)
  deriving DecidableEq, Repr

/-- A TLB entry (R116, 03.8). `size` is the log of the page size and `gsize` and `hsize` those of the leaves of the two stages
it was made from; `gpa` is the guest physical page base; `g*` and `h*` are the permissions of the two leaves (R114); the last
three say which structures of Table 04-6 hold it. -/
structure TlbEnt where
  regime : Regime
  asid : Option Nat
  va : Nat
  size : Nat
  gsize : Nat
  hsize : Nat
  gpa : Nat
  pa : Nat
  mt : MemType
  key : Nat
  gr : Bool
  gw : Bool
  gx : Bool
  gu : Bool
  hr : Bool
  hw : Bool
  hx : Bool
  l1i : Bool
  l1d : Bool
  l2 : Bool
  deriving DecidableEq, Repr

/-- The partition a core runs (R105 to R109): descriptor address, number, key ID, host root and levels, save-area page. -/
structure Running where
  desc : Nat
  part : Nat
  key : Nat
  hsRoot : Nat
  hsLvl5 : Bool
  save : Nat
  deriving DecidableEq, Repr

/-- The predictor structures of Table 04-3. -/
structure Predictor where
  bimodal : NMap (World × BitVec 2)
  tagged : NMap (World × BitVec 11 × BitVec 3 × BitVec 2)
  history : BitVec 222
  path : List W64
  ind : NMap (World × BitVec 10 × W64)
  l0 : List (W64 × World × W64)
  l1 : List (W64 × World × W64)
  ras : List W64
  deriving DecidableEq, Repr

/-- A held entry for sealed vectors (R581): the partition and its 256 vectors. -/
structure HeldVec where
  part : Nat
  vecs : BitVec 256
  deriving DecidableEq, Repr

/-- The sampling generator and buffer of a core (16.4): records, the number of micro-operations in the period, the tagged
offset, the next record number. -/
structure Sampler where
  recs : List (List W64)
  count : Nat
  tag : Nat
  seq : Nat
  deriving DecidableEq, Repr

/-- An entry of the stride prefetcher (Table 05-2): the load's pc, last physical address and key ID, stride, and how many equal
strides in a row. -/
structure PfStride where
  pc : W64
  last : Nat
  key : Nat
  stride : Int
  count : Nat
  deriving DecidableEq, Repr

/-- A stream of the stream prefetcher: last line missed, key ID, direction, and misses to consecutive lines. -/
structure PfStream where
  last : Nat
  key : Nat
  up : Bool
  count : Nat
  deriving DecidableEq, Repr

/-- A main core. -/
structure Core where
  g : NMap W64
  v : NMap W256
  p : NMap W32
  pc : W64
  level : Level
  world : World
  run : Run
  /-- System registers as MFS returns them; key: bank · 1024 + level · 256 + index, and 4096 + index for the Erg registers,
  which every level names alike (R643). -/
  sysr : NMap W64
  /-- The values of sync-class registers in force (R84), same keys. -/
  eff : NMap W64
  /-- The reservation: line and key ID (R69). -/
  resv : Option (Nat × Nat)
  running : Option Running
  gateRet : W64
  sq : List StoreEnt
  wait : Option Wait
  /-- L1D fill buffers: lines to be brought into the L1D, with the streaming flag (R157). -/
  fills : List (Nat × Nat × Bool)
  tlb : List TlbEnt
  pred : Predictor
  held : NMap HeldVec
  smp : Sampler
  /-- A debug halt request is held (R130). -/
  haltReq : Bool
  /-- What the prefetchers of Table 05-2 have learnt: lines and key IDs that missed the L1D, strides by load pc, and streams. -/
  pfNext : List (Nat × Nat)
  pfStride : List PfStride
  pfStream : List PfStream
  /-- Lines asked for only by a prefetcher or on the wrong path, with whether the L2 alone takes them (R184, Table 04-7). -/
  quiet : List (Nat × Bool)
  /-- Lines granted for an access that still waits, and whether that access is a store (R194). -/
  granted : List (Nat × Bool)
  deriving DecidableEq, Repr

/-! ## Coxswain pairs (chapter 10) -/

/-- A load of a pair that waits for a line (R437): destination, address, size, extension, the line asked for, whether through the
D-cache, and the lines that have come for accesses through descriptors with c = 0. -/
structure PairLoad where
  rd : RegNo
  addr : Nat
  size : Nat
  sext : Bool
  line : Nat
  cached : Bool
  got : List (Nat × Line × Bool)
  deriving DecidableEq, Repr

/-- A line that has come for the I- or D-cache of a pair and is being written in beats (R437); `bad` when the read received a
non-zero status (R589). -/
structure PairFill where
  icache : Bool
  line : Nat
  data : Line
  poison : Bool
  bad : Bool
  deriving DecidableEq, Repr

/-- The divide in progress (R418): opcode, the register fields, the window that was current and the result to write. -/
structure Divide where
  op : Nat
  rd : RegNo
  rs1 : RegNo
  rs2 : RegNo
  win : Nat
  result : W32
  deriving DecidableEq, Repr

/-- A Coxswain pair. -/
structure Pair where
  k : NMap W32
  /-- w0–w15 of the eight windows; key: window · 16 + register. -/
  w : NMap W32
  pc : W32
  /-- CX_ registers by index; segments at 0x40 to 0xBF. -/
  cxr : NMap W32
  /-- Sync-class values in force (R434). -/
  eff : NMap W32
  cwp : Nat
  /-- The current window and the windows that hold frames, oldest first. -/
  frames : List Nat
  depth : Nat
  /-- The window that was current when the spill-fault handler was entered (R422). -/
  spillRet : Nat
  /-- Pending levels of the 64 inputs (R424). -/
  pend : W64
  div : Option Divide
  wait : Option PairLoad
  fills : List PairFill
  resv : Option Nat
  /-- Pages that passed the ownership check (R433). -/
  owned : List Nat
  /-- In C-idle: WFI executed and no input taken. -/
  waiting : Bool
  deriving DecidableEq, Repr

/-! ## Caches and homes (chapter 05) -/

/-- The MOESI states of a line in a cache (05.5); an L3 line is `M` when dirty and `E` when clean. -/
inductive Moesi where
  | M | O | E | S
  deriving DecidableEq, Repr

/-- A cached line. -/
structure CLine where
  line : Nat
  key : Nat
  st : Moesi
  data : Line
  poison : Bool
  age : Nat
  strm : Bool
  deriving DecidableEq, Repr

/-- Directory states (05.5). -/
inductive DirState where
  | S | EM | O
  deriving DecidableEq, Repr

/-- A directory entry (R175). -/
structure DirEnt where
  line : Nat
  key : Nat
  st : DirState
  pres : BitVec 144
  owner : Nat
  way : Nat
  age : Nat
  deriving DecidableEq, Repr

/-- The packets of Tables 06-3 and 06-5. -/
inductive Op where
  | RdS | RdO | Upg | EvC | RdOnce | WrLine | WrPtl | RdDev | MemRd | MemWr
  | SnpS | SnpIF | SnpI | SnpOnce | ShInc | ShDec
  | Cmp | CmpM | WBP | SnpAck | WBAck | FenceMark
  | DatS | DatE | DatM | DatRd | WBk | WCln | SnpDat
  | SamUpd | Tlbi | PotInv | TagRecov | RegRd | RegWr | Intr | Fence | RegCmp | BcAck
  | DcOp
  deriving DecidableEq, Repr

/-- The unit within a stop that sends or receives a packet. -/
inductive Unit where
  | core (n : Nat) | pair (k : Nat) | pairCache (k : Nat) (icache : Bool) | slot (k i : Nat) | sweep (e : Nat)
  | io (n : Nat) | home (t : Nat) | mc (n : Nat) | debug | ni
  deriving DecidableEq, Repr

/-- A packet in flight. `fwd` is the requester a snoop or a memory read answers for; `arg` carries a size, a vector or a way. -/
structure Packet where
  op : Op
  src : Nat
  dst : Nat
  from_ : Unit
  to_ : Unit
  tid : Nat
  addr : Nat
  key : Nat
  status : Nat
  poison : Bool
  fin : Bool
  flag : Bool
  data : Line
  mask : W64
  fwd : Option (Nat × Nat × Unit)
  arg : Nat
  deriving DecidableEq, Repr

/-- An outstanding request of a stop (R259 to R263); `held` after its watchdog fired, until every FenceMark has come. -/
structure Out where
  stop : Nat
  tid : Nat
  who : Unit
  op : Op
  addr : Nat
  key : Nat
  dst : Nat
  held : Bool
  marks : Nat
  deriving DecidableEq, Repr

/-- A transaction of a home slice (R191, R195): the request packet, whether it is active, outstanding snoop answers, data
received for it, whether that data is dirty or poisoned, whether a WBk is in flight, whether DRAM has been asked. -/
structure Txn where
  slice : Nat
  req : Packet
  active : Bool
  acks : Nat
  dat : Option Line
  dirty : Bool
  poison : Bool
  wbFlight : Bool
  sentDat : Bool
  mem : Bool
  /-- L2s found without a copy, or whose writeback has come. -/
  gone : List Nat
  deriving DecidableEq, Repr

/-- An evicted line in an L2's writeback buffer (R198). -/
structure WbEnt where
  core : Nat
  line : Nat
  key : Nat
  data : Line
  poison : Bool
  strm : Bool
  clean : Bool
  deriving DecidableEq, Repr

/-- The homes and the L2 miss machinery. -/
structure Homes where
  txns : List Txn
  /-- The rotating token of each slice (R192). -/
  tokens : NMap Nat
  wbs : List WbEnt
  /-- Tiles whose STOP_ID.in_service read 1 at the last Cold, Warm or Catch reset (R187). -/
  inService : BitVec 72
  /-- Sets of an L2 that wait for tag recovery (R209): core · 1024 + set, and slices still to answer. -/
  recov : NMap (BitVec 72)
  /-- EM and O lines the slices have reported for a recovering set. -/
  recovered : List (Nat × Nat × Nat × Bool)
  /-- Corrected errors of a way, one count for each of 24 hourly buckets (R210). -/
  ways : NMap (List Nat)
  /-- Slices that an uncorrectable tag or directory error has stopped (Table 05-11). -/
  stopped : List Nat
  deriving DecidableEq, Repr

/-! ## Memory stops (chapter 07) -/

/-- Where a line lies in its channel (R281). -/
structure Place3 where
  sub : Nat
  rank : Nat
  bank : Nat
  row : Nat
  col : Nat
  deriving DecidableEq, Repr

/-- A read or write entry of a memory stop (R282, R283). -/
structure MemEnt where
  id : Nat
  write : Bool
  line : Nat
  ca : Nat
  key : Nat
  data : Line
  poison : Bool
  fin : Bool
  port : Nat
  urg : Nat
  ageNs : Nat
  passed : Nat
  issued : Bool
  /-- Reads of this entry found uncorrectable so far: the re-read of R297, then the partner copy of R307. -/
  tries : Nat
  /-- Writes sent to the mirror partner that it has not issued yet (R306). -/
  mirror : Nat
  req : Packet
  deriving DecidableEq, Repr

/-- A bank of a rank of a subchannel: open row, activation table (row, count), pending DRFMs, the times in µs
of its corrected errors, traffic held. -/
structure Bank where
  openRow : Option Nat
  table : List (Nat × Nat)
  drfm : List Nat
  ce : List Nat
  hold : Bool
  deriving DecidableEq, Repr

/-- A memory stop. -/
structure MemStop where
  ents : List MemEnt
  nextId : Nat
  drain : BitVec 2
  wheel : Nat
  refreshDue : BitVec 2
  /-- rank · 128 + subchannel · 64 + bank. -/
  banks : NMap Bank
  /-- Sparing: rank · 2 + subchannel to the failing bank, and whether the copy has ended. -/
  spared : NMap (Nat × Bool)
  exhausted : List Nat
  /-- The fourth replay attempt failed (R299). -/
  dead : Bool
  patrol : Nat
  evictions : Nat
  /-- Rows repaired by soft or hard post-package repair. -/
  repaired : List (Nat × Nat × Nat)
  mirrorLogged : Bool
  /-- Remote tracker: line to "may hold exclusively", and the untracked count (R214, R217). -/
  tracker : NMap Bool
  untracked : Nat
  remoteSnoops : List (Nat × Bool)
  /-- Every slot not listed in `State.keys` reads as erased (R315). -/
  keysErased : Bool
  /-- In self-refresh (R518). -/
  selfRefresh : Bool
  deriving DecidableEq, Repr

/-- What DRAM remembers of a line beside its plaintext: the key and tweak it was encrypted under when `enc`, and the poison
pattern of R296. -/
structure LMeta where
  key : BitVec 512
  enc : Bool
  tweak : Nat
  poison : Bool
  deriving DecidableEq, Repr

/-- A key slot (R312). -/
inductive KeySlot where
  | empty | loaded (key : BitVec 512) | erased
  deriving DecidableEq, Repr

/-! ## The fabric (chapter 06) -/

/-- A broadcast that collects acknowledgements (R252): kind, source stop, the agent that waits, two argument words and a number,
the regime of a TLBI, the units that have still to apply it, and the stops whose BcAck is missing. -/
structure Bcast where
  kind : BcastKind
  src : Nat
  who : Unit
  a : W64
  b : W64
  arg : Nat
  regime : Regime
  todo : List XlUnit
  missing : List Nat
  deriving DecidableEq, Repr

/-- The fabric: packets in flight, outstanding requests, broadcasts, flits at ports and on links, reserved-lane messages, trace
buffers. -/
structure Fabric where
  net : List Packet
  outs : List Out
  bcasts : List Bcast
  /-- Flits waiting at a stop's own port (R253), first in first out. -/
  heldFlits : NMap (List Flit)
  /-- Flits on their way to a router input: stop · 8 + input. -/
  routers : NMap (List Flit)
  /-- First flits of WrPtl packets whose second has not come (R229). -/
  halves : List Flit
  /-- Reserved-lane messages on their way: stop, kind and argument (R234). -/
  lane : List (Nat × Nat × Nat)
  /-- The trace buffers: stop · 1024 + record (Table 06-25). -/
  trace : NMap (W64 × W64)
  /-- Stops whose probe has dropped a record since it last stored one (R267). -/
  traceLost : List Nat
  /-- The Finish message stands as a level (R251). -/
  finishLevel : Bool
  deriving DecidableEq, Repr

/-! ## Sweep engines (chapters 08 and 09) -/

/-- A job as its home engine keeps it (Table 08-16): its descriptor, the group, the engines that have ended their share, the first
error with its engine and row, and the state its record holds. -/
structure SwJob where
  id : Nat
  queue : Nat
  words : List W64
  group : BitVec 16
  done : BitVec 16
  err : Nat
  errEng : Nat
  errRow : Nat
  state : Nat
  deriving DecidableEq, Repr

/-- A queue beside its registers: ring positions, the pool's rotating pointer, the QCB as last read, whether a read of it is due or
under way, the latched enable of R346, a reset in progress, its jobs in order of submission. -/
structure SwQueue where
  subHead : Nat
  relHead : Nat
  resNext : Nat
  resHead : Nat
  ptr : Nat
  qcb : List W64
  reading : Bool
  latched : Bool
  resetting : Bool
  jobs : List SwJob
  deriving DecidableEq, Repr

/-- An output buffer being filled (R363): its partition, first group, handle, data and entries. -/
structure OpenBuf where
  part : Nat
  first : Nat
  handle : Nat
  data : List Byte
  entries : Nat
  deriving DecidableEq, Repr

/-- The aggregates of a group: count, sum, minimum, maximum (Table 08-5). -/
structure AggRow where
  count : W64
  sum : W64
  min : W64
  max : W64
  deriving DecidableEq, Repr

/-- What a customer body outputs: a row of the unit (SEL), a value (PUTV), or a flush (FLUSH). -/
inductive SwItem where
  | row (r : Nat) | value (v : W64) | flush
  deriving DecidableEq, Repr

/-- A decoded column of a unit. -/
structure Column where
  firstRow : Nat
  rows : Nat
  vals : List W64
  deriving DecidableEq, Repr

/-- Which routine of a customer module runs (09.8). -/
inductive UcPhase where
  | idle | init | body
  deriving DecidableEq, Repr

/-- The sequencer and datapath as customer microcode sees them (Table 09-1), with the routine that runs, a branch target that waits
for its delay slot, the decoded unit, the next group of each column, the row of lane 0 and the valid lanes of the last group of
column 0, the group of a kind 0 body, and what the unit has output. -/
structure Ucode where
  s : NMap W64
  x : NMap W64
  m : NMap Byte
  c : Byte
  link : List Nat
  pc : Nat
  phase : UcPhase
  target : Option Nat
  unit : Nat
  cols : List Column
  groups : NMap Nat
  lane0 : Option Nat
  lanes : Byte
  group : Nat
  out : List SwItem
  deriving DecidableEq, Repr

/-- An engine's share of a job: whether it has started, the next unit to look at, rows or chunks of ended units and results
published, suspension and whether it may resume, a stop told to it, an error not yet reported to the home engine, its open buffers,
its aggregates, the list or filter it has loaded, and for a customer job the sequencer, whether init has run, and its allocation. -/
structure SwShare where
  job : Nat
  queue : Nat
  started : Bool
  next : Nat
  ended : Nat
  consumed : Nat
  emitted : Nat
  susp : Bool
  resume : Bool
  stop : Bool
  err : Option (Nat × Nat)
  bufs : List OpenBuf
  agg : NMap AggRow
  operand : List Byte
  uc : Ucode
  inited : Bool
  scratch : NMap Byte
  deriving DecidableEq, Repr

/-- An engine: the shares in its inbox and those started, in order of arrival, and its translations. -/
structure SwEngine where
  shares : List SwShare
  tlb : List TlbEnt
  deriving DecidableEq, Repr

/-- A customer module (Tables 09-7, 09-8). -/
structure SwModule where
  abi : Nat
  id : Nat
  crc : Nat
  entries : List W64
  words : List W32
  deriving DecidableEq, Repr

/-- The loader (09.7): the module in the control stores, the command in progress (1 load, 2 unload), the checked module,
whether customer jobs are held, and the limit of the hold in ms. -/
structure Loader where
  loaded : Option SwModule
  op : Nat
  checked : Option SwModule
  hold : Bool
  waitMs : Nat
  deriving DecidableEq, Repr

/-- The Sweep engines: queues, engines, the next job number, and the loader. -/
structure Sweep where
  queues : NMap SwQueue
  engines : NMap SwEngine
  nextJob : Nat
  loader : Loader
  deriving DecidableEq, Repr

/-! ## I/O stops and the endpoint (chapter 13) -/

/-- What a TLP that a stop sends on a link is. -/
inductive TlpKind where
  | memWrite | memRead | completion | message | config
  deriving DecidableEq, Repr

/-- A TLP sent on a link and not yet taken by the partner: its function or completed requester, tag, address or MSI-X vector, length
and data. -/
structure OutTlp where
  link : Nat
  kind : TlpKind
  rid : Nat
  tag : Nat
  addr : W64
  len : Nat
  bytes : List Byte
  status : CplStatus
  ep : Bool
  deriving DecidableEq, Repr

/-- A tag of a stop in use (R536): its link, and the fabric request it stands for; none while held (R567). -/
structure IoTag where
  link : Nat
  req : Option Packet
  deriving DecidableEq, Repr

/-- A context entry an IOTU has read (Table 13-9): the requester ID or ring selector, the page it lies in, its four words. -/
structure CtxEnt where
  rid : Nat
  page : Nat
  words : List W64
  deriving DecidableEq, Repr

/-- An I/O stop: pers and bif in force (R534), tags, TLPs on their way out, the IOTU's context entries and translations, the levels
of its PERST_N outputs and of the endpoint input (R685). -/
structure IoStop where
  cfg : W64
  tags : NMap IoTag
  egress : List OutTlp
  ctxs : List CtxEnt
  tlb : List TlbEnt
  perst : BitVec 4
  perstIn : Bool
  deriving DecidableEq, Repr

/-- A function of the endpoint (13.5 to 13.7): enables of its configuration space, MSI-X masks and pending bits, and the function
reset in progress, with another latched (R561). -/
structure EpFn where
  mse : Bool
  bme : Bool
  vfe : Bool
  msix : Bool
  fmask : Bool
  mask : BitVec 2048
  pend : BitVec 2048
  flr : Bool
  flrAgain : Bool
  deriving DecidableEq, Repr

/-- The I/O stops and the endpoint's functions. -/
structure Io where
  stops : NMap IoStop
  fns : NMap EpFn
  deriving DecidableEq, Repr

/-! ## Finish, power and reset (chapters 11 and 12) -/

/-- Finish and Catch beside their registers: since when HOLDUP_OK is high (R457), the islands the level has reached, whether a main
core has been released since reset (R468), whether Catch is under way, when step 1 began, lines written to each channel (R472),
CX3's window, ranges copied, the count since the part was made, DB_CFG at the trigger, the length of the flush in µs, the result of
Table 11-12 and the record's address. -/
structure Finishing where
  holdSince : Option Nat
  taken : List Nat
  released : Bool
  catching : Bool
  startUs : Nat
  lines : NMap Nat
  cx3Open : Bool
  copied : BitVec 16
  seq : Nat
  dbCfg : W64
  flushUs : Nat
  result : Nat
  record : Nat
  deriving DecidableEq, Repr

/-- Power beside its registers: the package off (R510), CX0 held until the fuse load ends (R409), domains whose bring-up has stopped
(R503), domains that lost power since the last reset (R527), pending slots of rails and of the package (R519),
sensor readings, tiles at half clock (R509) and tiles being throttled, the last tile raised (R507), REFCLK present (R505), tiles
in Tile reset with the partitions to report. -/
structure Power where
  off : Bool
  fusing : Bool
  stuck : List Nat
  lost : List Nat
  slots : NMap Nat
  temps : NMap Nat
  halved : List Nat
  throttled : List Nat
  raised : Nat
  refclk : Bool
  tileRst : List Nat
  deriving DecidableEq, Repr

/-! ## Boot, security and the board (chapters 14, 15 and 17) -/

/-- The boot flash and what CX0 and CX2 keep of it: bytes, an unlisted one erased, 0xFF; the recovery page buffer; SHA-384 digests
of the selected copy's records (R628); the boot entry (R632); channels with a training entry (R624); whether the copies have been
read; Cold boots counted, and the error-log ring's next entry and number (R602). -/
structure Boot where
  flash : NMap Byte
  page : List Byte
  digests : List (List Byte)
  entry : Nat
  trained : BitVec 16
  colds : Nat
  logPos : Nat
  logSeq : Nat
  deriving DecidableEq, Repr

/-- What CX2 counts (Table 14-10): times in µs of events by kind and place, and corrected records gathered for the log (R602). -/
structure Ras where
  events : List (Nat × Nat × Nat)
  gathered : List (List W64)
  /-- Tiles logged out of service from the next Warm or Catch reset on. -/
  tilesOut : List Nat
  /-- Structures that have logged a fatal error: bank and unit (R601). -/
  dead : List (BankId × Nat)
  deriving DecidableEq, Repr

/-- The entropy source (14.8) and the epoch flag (R610): generate calls and time since the last reseed, times of failures; and the
descriptors CX0 has validated, each with its key slot and the key loaded there at that time (R446, R699). -/
structure Security where
  calls : Nat
  seededUs : Nat
  failures : List Nat
  epochFlag : Bool
  descs : List (Nat × Nat × BitVec 512)
  deriving DecidableEq, Repr

/-- The boundary-scan instructions (R686). -/
inductive Jtag where
  | bypass | samplePreload | extest | clamp | highz
  deriving DecidableEq, Repr

/-- Levels at the lands (Table 17-3) that no register holds: inputs PWRFAIL_N and DBG_PRESENT_N (HOLDUP_OK is `Finishing.holdSince`);
output ALARM_N; multifunction pins within the two clocks of R639; the boundary-scan instruction, whether a main core has been released
since the last Cold reset (R686), and the last debug-port response. MCnn_RESET_N is low only within BOOT_COMMIT, while the channels are
initialised (R676), so it needs no field. -/
structure Pins where
  pwrfailN : Bool
  dbgPresentN : Bool
  alarmN : Bool
  switching : List Nat
  jtag : Jtag
  coreRan : Bool
  dbgOut : List Byte
  deriving DecidableEq, Repr

/-- The whole machine. -/
structure State where
  /-- The commands that wait, first in first out (the model's own). -/
  pending : List Instr
  /-- The memory-mapped registers: key (stop << 24) | offset; an unlisted register holds its Cold value (R21). -/
  crs : NMap W64
  cores : NMap Core
  pairs : NMap Pair
  /-- TCM bytes: pair · 2^19 + offset (R435). -/
  tcm : NMap Byte
  /-- Every cache: cache number · 2^16 + set · 16 + way (Table 05-1). -/
  lines : NMap CLine
  /-- The directory: (slice · 4096 + set) · 16 + way. -/
  dir : NMap DirEnt
  homes : Homes
  /-- DRAM, as plaintext bytes; the address of a cell is channel · 2^48 + channel-local address (R281). -/
  dram : List Host.Cell
  /-- By line of the same address space. -/
  lmeta : NMap LMeta
  mcs : NMap MemStop
  /-- Key slots: memory stop · 4096 + slot. -/
  keys : NMap KeySlot
  /-- Ownership shadows: memory stop · 2^20 + index (R219). -/
  shadow : NMap Nat
  fab : Fabric
  sweep : Sweep
  io : Io
  fin : Finishing
  power : Power
  boot : Boot
  ras : Ras
  sec : Security
  pins : Pins
  /-- Writes of ERG_GCTL that wait for busy to clear (R664). -/
  gctl : List Nat
  /-- Full records of sealed accesses that went to CX0 alone (R591, R599). -/
  sealedRecs : List (BankId × ErrRec)
  /-- Stops whose counters the chip-wide freeze has stopped (R665). -/
  frozen : List Nat
  /-- The timebase in µs since Cold reset (R593). -/
  timeUs : Nat
  /-- The model's own: how many free values have been drawn (log entry 2). -/
  free : Nat
  deriving DecidableEq, Repr

/-- Why a command stops with a fault. No command of this model does: every meaning answers a next state. -/
inductive Fault where
  /-- Raised by nothing: the specification names no event that stops the part without a state it describes. Safe. -/
  | none
  deriving DecidableEq, Repr

/-- Why a command is refused. -/
inductive Refusal where
  /-- Raised by `exec` for a command with no meaning yet. Safe: nothing is claimed of it. -/
  | notModelled (mnemonic : String)
  deriving DecidableEq, Repr

/-- The machine after Cold reset (R21, R410, R530): every register at its Cold value, every cache, buffer and queue empty, CX0 out
of reset, the other pairs and every main core held. -/
def State.reset : State :=
  { pending := [], crs := [], cores := [], pairs := [], tcm := [], lines := [], dir := []
    homes := { txns := [], tokens := [], wbs := [], inService := BitVec.allOnes 72, recov := [], recovered := [], ways := [], stopped := [] }
    dram := [], lmeta := [], mcs := [], keys := [], shadow := []
    fab := { net := [], outs := [], bcasts := [], heldFlits := [], routers := [], halves := [], lane := [],
             trace := [], traceLost := [], finishLevel := false }
    sweep := { queues := [], engines := [], nextJob := 0, loader := { loaded := none, op := 0, checked := none, hold := false, waitMs := 0 } }
    io := { stops := [], fns := [] }
    fin := { holdSince := none, taken := [], released := false, catching := false, startUs := 0, lines := [], cx3Open := false,
             copied := 0, seq := 0, dbCfg := 0, flushUs := 0, result := 0, record := 0 }
    power := { off := false, fusing := false, stuck := [], lost := [], slots := [], temps := [], halved := [],
               throttled := [], raised := 71, refclk := true, tileRst := [] }
    boot := { flash := [], page := [], digests := [], entry := 0, trained := 0, colds := 0, logPos := 0, logSeq := 0 }
    ras := { events := [], gathered := [], tilesOut := [], dead := [] }
    sec := { calls := 0, seededUs := 0, failures := [], epochFlag := false, descs := [] }
    pins := { pwrfailN := true, dbgPresentN := true, alarmN := true, switching := [], jtag := .bypass, coreRan := false, dbgOut := [] }
    gctl := [], sealedRecs := [], frozen := [], timeUs := 0, free := 0 }

end Sys2Proof.Machine
end

