-- ==== Sys2Proof/Machine/Regs.lean ====
section
/-! DEFINITION. The stop map, the Chip Register Space, and the content of a register (chapters 00 and 01). -/

namespace Sys2Proof.Machine

/-! ## Stops (Table 01-1) -/

/-- A stop ID from row and column (R23). -/
def stopAt (r c : Nat) : Nat := r * 16 + c

/-- The stop of tile Tn. -/
def tileStop (t : Nat) : Nat :=
  if t < 3 then stopAt 0 (4 + 2 * t)
  else if t < 69 then stopAt (1 + (t - 3) / 11) (1 + (t - 3) % 11)
  else stopAt 7 (4 + 2 * (t - 69))

/-- The stop of MCn. -/
def mcStop (n : Nat) : Nat := if n < 8 then stopAt n 0 else stopAt (n - 8) 12

/-- The stop of IOn. -/
def ioStop (n : Nat) : Nat := if n < 6 then stopAt 0 (1 + 2 * n) else stopAt 7 (1 + 2 * (n - 6))

/-- The stop of SVn. -/
def svStop : Nat → Nat
  | 0 => 0x02
  | 1 => 0x0A
  | 2 => 0x72
  | _ => 0x7A

/-- The stop that holds main core `n` (R24). -/
def coreStop (n : Nat) : Nat := tileStop (n / 2)

/-- Every stop, by tile, channel, I/O and service stop. -/
def allStops : List Nat :=
  (List.range 72).map tileStop ++ (List.range 16).map mcStop ++ (List.range 12).map ioStop ++ (List.range 4).map svStop

/-- The kind of a stop (0 tile, 1 memory, 2 I/O, 3 service) and its index; none where the ID names no stop (R23). -/
def stopKind (s : Nat) : Option (Nat × Nat) :=
  let r := s / 16
  let c := s % 16
  if 7 < r ∨ 12 < c then none
  else if c = 0 then some (1, r)
  else if c = 12 then some (1, 8 + r)
  else if 0 < r ∧ r < 7 then some (0, 3 + 11 * (r - 1) + (c - 1))
  else if c = 2 then some (3, if r = 0 then 0 else 2)
  else if c = 10 then some (3, if r = 0 then 1 else 3)
  else if c % 2 = 0 then some (0, (if r = 0 then 0 else 69) + (c - 4) / 2)
  else some (2, (if r = 0 then 0 else 6) + (c - 1) / 2)

/-- The stop of a requester. -/
def reqStop : Req → Nat
  | .core n _ _ => coreStop n
  | .cx k => svStop k
  | .debug => 0x02
  | .io n => ioStop n

/-! ## Places of registers (R29 to R31, Table 14-6, 16.5) -/

/-- The offset in the Chip Register Space of an error bank (Table 14-6). -/
def bankBase : BankId → Nat
  | .core n => coreStop n <<< 24 + (n % 2) * 0x400000 + 0x3FC000
  | .tile t => tileStop t <<< 24 + 0xC01000
  | .mc n => mcStop n <<< 24 + 0x0E0000
  | .io n => ioStop n <<< 24 + 0x0E0000
  | .sv k => svStop k <<< 24 + 0x0E0000
  | .fabric s => s <<< 24 + 0xFF2000

/-- The offset of an uncore counter block (16.5). -/
def uncBase : ErgUnit → Nat
  | .tile t => tileStop t <<< 24 + 0xC00400
  | .mc n => mcStop n <<< 24 + 0x0D0000
  | .io n => ioStop n <<< 24 + 0x0D0000
  | _ => 0

/-- Where block instance `u` begins; error banks and uncore blocks are named by their base itself. -/
def blockBase : Block → Nat → Nat
  | .sv0, _ => 0x02 <<< 24
  | .sv1, _ => 0x0A <<< 24
  | .sv2, _ => 0x72 <<< 24
  | .sv3, _ => 0x7A <<< 24
  | .sv, u => svStop u <<< 24
  | .stop, u => u <<< 24
  | .tile, u => tileStop u <<< 24
  | .mc, u => mcStop u <<< 24
  | .io, u => ioStop u <<< 24
  | .io0, _ => ioStop 0 <<< 24
  | .ep, u => ioStop u <<< 24
  | .bank, u => u
  | .unc, u => u

/-- The offset in the Chip Register Space of instance `i` of register `r` in block `u`. -/
def RegName.key (r : RegName) (u i : Nat) : Nat :=
  blockBase r.place.block u + r.place.off + r.place.stride * i

/-- The block instances of kind `b` that a stop's window holds. -/
def blockUnits (b : Block) (stop : Nat) : List Nat :=
  match stopKind stop with
  | none => []
  | some (k, n) =>
    match b with
    | .sv0 => if stop = 0x02 then [0] else []
    | .sv1 => if stop = 0x0A then [0] else []
    | .sv2 => if stop = 0x72 then [0] else []
    | .sv3 => if stop = 0x7A then [0] else []
    | .sv => if k = 3 then [n] else []
    | .stop => [stop]
    | .tile => if k = 0 then [n] else []
    | .mc => if k = 1 then [n] else []
    | .io => if k = 2 then [n] else []
    | .io0 => if k = 2 ∧ n = 0 then [0] else []
    | .ep => if k = 2 ∧ n < 2 then [n] else []
    | .bank =>
      bankBase (.fabric stop) ::
        (if k = 0 then [bankBase (.core (2 * n)), bankBase (.core (2 * n + 1)), bankBase (.tile n)]
         else [stop <<< 24 + 0x0E0000])
    | .unc => if k = 0 then [uncBase (.tile n)] else if k = 1 then [uncBase (.mc n)]
              else if k = 2 then [uncBase (.io n)] else []

/-- The instance of `r` in block `u` that lies at offset `off` of the Chip Register Space. -/
def RegName.at (r : RegName) (u off : Nat) : Option (RegName × Nat × Nat) :=
  let p := r.place
  let base := blockBase p.block u + p.off
  if off < base then none
  else if p.count = 1 then (if off = base then some (r, u, 0) else none)
  else if (off - base) % p.stride = 0 ∧ (off - base) / p.stride < p.count then
    some (r, u, (off - base) / p.stride)
  else none

/-- The register at an 8-byte-aligned offset of the Chip Register Space; none where no register stands (R32). EP_VF begins at
v = 1 (Table 13-15). -/
def locate (off : Nat) : Option (RegName × Nat × Nat) :=
  (RegName.all.findSome? fun r => (blockUnits r.place.block (off >>> 24)).findSome? fun u => r.at u off).filter
    fun e => !(decide (e.2.2 = 0) && (decide (e.1 = .EP_VF0) || decide (e.1 = .EP_VF1)))

/-! ## Contents -/

/-- A word whose fields hold the values `f` gives. -/
def packFields (fs : List Field) (f : Field → Nat) : W64 :=
  w64 (fs.foldl (fun a e => a + f e % 2 ^ (e.hi + 1 - e.lo) * 2 ^ e.lo) 0)

/-- The Cold value the register's own table gives. -/
def RegName.coldTable (r : RegName) : W64 := packFields r.fields Field.cold

/-- The default kind of a route entry with no router bypassed (R243). -/
def routeDefault (d : Nat) : Nat := if (stopKind d).isSome then 0 else 3

/-- The Cold content of a register instance (R21): its table's, or the value that depends on the instance. Fuses and straps
read 0 but for FUSE_LOCK.key_present, 0xF (log entry 3). -/
def coldAt (r : RegName) (u i : Nat) : W64 :=
  match r with
  | .STOP_ID =>
    match stopKind u with
    | some (k, n) => w64 (2 ^ 32 + n * 2 ^ 16 + k * 2 ^ 8 + u)
    | none => 0
  | .SEC_ALM_CFG => w64 ([3, 3, 3, 7, 1, 10, 9, 1].getD i 0)
  | .CXS_CTL => if u = 0 then 0 else 1
  | .NI_RT => w64 (routeDefault i)
  | .MC_LAT_TGT => w64 (if i < 72 ∨ i = 85 then 150 else if i < 84 then 1000 else 2000)
  | .MUX_FN => if i = 0 then w64 (2 ^ 63 + 0x20) else 0
  | .FUSE_LOCK => w64 (0xF <<< 52)
  | r => r.coldTable

namespace State

/-- The content of instance `i` of register `r` in block `u`. -/
def reg (s : State) (r : RegName) (u : Nat := 0) (i : Nat := 0) : W64 :=
  NMap.get (coldAt r u i) s.crs (r.key u i)

/-- The state with that register at `v`. -/
def setReg (s : State) (r : RegName) (v : W64) (u : Nat := 0) (i : Nat := 0) : State :=
  { s with crs := NMap.set (coldAt r u i) s.crs (r.key u i) v }

/-- Bits [hi:lo] of a register. -/
def regF (s : State) (r : RegName) (hi lo : Nat) (u : Nat := 0) (i : Nat := 0) : Nat := fld (s.reg r u i) hi lo

/-- The state with bits [hi:lo] of a register at `x`. -/
def setRegF (s : State) (r : RegName) (hi lo x : Nat) (u : Nat := 0) (i : Nat := 0) : State :=
  s.setReg r (setFld (s.reg r u i) hi lo x) u i

/-- The state with a saturating field raised by one. -/
def bumpReg (s : State) (r : RegName) (hi lo : Nat) (u : Nat := 0) (i : Nat := 0) : State :=
  s.setRegF r hi lo (satAdd (s.regF r hi lo u i) 1 (2 ^ (hi + 1 - lo) - 1)) u i

end State

end Sys2Proof.Machine
end

