-- ==== Sys2Proof/Machine/Ops.lean ====
section
/-! DEFINITION. The named operations on cores, pairs, packets, error banks and interrupt controllers that the meanings share. -/

namespace Sys2Proof.Machine

/-! ## Units at reset -/

/-- An empty predictor (R145, end of 04.8). -/
def Predictor.empty : Predictor := ⟨[], [], 0, [], [], [], [], []⟩

/-- A main core after reset: level F, open world, every register 0, held until released (R93, R530). -/
def Core.cold : Core :=
  { g := [], v := [], p := [], pc := 0, level := .F, world := .openW, run := .held, sysr := [], eff := [],
    resv := none, running := none, gateRet := 0, sq := [], wait := none, fills := [], tlb := [], pred := .empty, held := [],
    smp := ⟨[], 0, 0, 0⟩, haltReq := false, pfNext := [],
    pfStride := [], pfStream := [], quiet := [], granted := [] }

/-- A pair as it leaves reset (R410): window 1 current, every register 0, and the pc by pair. -/
def Pair.start (k : Nat) : Pair :=
  { k := [], w := [], pc := if k = 0 then 0xFFFF0000#32 else 0, cxr := [], eff := [], cwp := 1, frames := [], depth := 0,
    spillRet := 1, pend := 0, div := none, wait := none, fills := [], resv := none, owned := [], waiting := false }

/-- A memory stop with nothing queued. -/
def MemStop.cold : MemStop :=
  { ents := [], nextId := 0, drain := 0, wheel := 0, refreshDue := 0, banks := [], spared := [], exhausted := [],
    dead := false, patrol := 0, evictions := 0, repaired := [], mirrorLogged := false, tracker := [], untracked := 0,
    remoteSnoops := [], keysErased := false, selfRefresh := false }

/-- A DRAM bank with no open row and no activation counted. -/
def Bank.cold : Bank := ⟨none, [], [], [], false⟩

/-- A DRAM line never written: plaintext, no poison. -/
def LMeta.plain : LMeta := ⟨0, false, 0, false⟩

/-- A queue with nothing submitted. -/
def SwQueue.cold : SwQueue := ⟨0, 0, 0, 0, 0, [], false, false, false, []⟩

/-- An engine with an empty inbox. -/
def SwEngine.cold : SwEngine := ⟨[], []⟩

/-- The sequencer before a customer job's first unit (R401). -/
def Ucode.cold : Ucode := ⟨[], [], [], 0, [], 0, .idle, none, 0, [], [], none, 0, 0, []⟩

/-- An I/O stop after a reset of its island: nothing outstanding, every PERST_N output low (R685). -/
def IoStop.cold : IoStop := ⟨0, [], [], [], [], 0, true⟩

/-- An endpoint function after reset: every enable clear and every vector masked. -/
def EpFn.cold : EpFn := ⟨false, false, false, false, false, BitVec.allOnes 2048, 0, false, false⟩

namespace State

/-! ## Access to units -/

/-- Main core `n`. -/
def core (s : State) (n : Nat) : Core := NMap.get Core.cold s.cores n
/-- The state with core `n` at `c`. -/
def setCore (s : State) (n : Nat) (c : Core) : State := { s with cores := NMap.set Core.cold s.cores n c }
/-- The state with `f` applied to core `n`. -/
def modCore (s : State) (n : Nat) (f : Core → Core) : State := s.setCore n (f (s.core n))

/-- Pair CXk. -/
def pair (s : State) (k : Nat) : Pair := NMap.get (Pair.start k) s.pairs k
def setPair (s : State) (k : Nat) (p : Pair) : State := { s with pairs := NMap.set (Pair.start k) s.pairs k p }
def modPair (s : State) (k : Nat) (f : Pair → Pair) : State := s.setPair k (f (s.pair k))

/-- Memory stop MCn. -/
def mc (s : State) (n : Nat) : MemStop := NMap.get MemStop.cold s.mcs n
def setMc (s : State) (n : Nat) (m : MemStop) : State := { s with mcs := NMap.set MemStop.cold s.mcs n m }
def modMc (s : State) (n : Nat) (f : MemStop → MemStop) : State := s.setMc n (f (s.mc n))

/-- Job queue `q`, homed in engine SW(q div 64), and engine SWe. -/
def queue (s : State) (q : Nat) : SwQueue := NMap.get SwQueue.cold s.sweep.queues q
def modQueue (s : State) (q : Nat) (f : SwQueue → SwQueue) : State :=
  { s with sweep := { s.sweep with queues := NMap.set SwQueue.cold s.sweep.queues q (f (s.queue q)) } }
def engine (s : State) (e : Nat) : SwEngine := NMap.get SwEngine.cold s.sweep.engines e
def modEngine (s : State) (e : Nat) (f : SwEngine → SwEngine) : State :=
  { s with sweep := { s.sweep with engines := NMap.set SwEngine.cold s.sweep.engines e (f (s.engine e)) } }

/-- I/O stop IOn, and function `f` of the endpoint. -/
def ioAt (s : State) (n : Nat) : IoStop := NMap.get IoStop.cold s.io.stops n
def modIo (s : State) (n : Nat) (f : IoStop → IoStop) : State :=
  { s with io := { s.io with stops := NMap.set IoStop.cold s.io.stops n (f (s.ioAt n)) } }
def fnAt (s : State) (i : Nat) : EpFn := NMap.get EpFn.cold s.io.fns i
def modFn (s : State) (i : Nat) (f : EpFn → EpFn) : State :=
  { s with io := { s.io with fns := NMap.set EpFn.cold s.io.fns i (f (s.fnAt i)) } }

/-- The state with `f` applied to the fabric, or to the homes. -/
def modFab (s : State) (f : Fabric → Fabric) : State := { s with fab := f s.fab }
def modHomes (s : State) (f : Homes → Homes) : State := { s with homes := f s.homes }

/-- The next free value, and the state that has drawn it (log entry 2). -/
def draw (s : State) : W64 × State := (Config.free64 s.free, { s with free := s.free + 1 })

end State

/-! ## Levels and system registers (03.3) -/

/-- The encoding of a level (Table 03-1). -/
def levelNum : Level → Nat
  | .U => 0
  | .K => 1
  | .H => 2
  | .F => 3

/-- The level of an encoding. -/
def levelOf : Nat → Level
  | 0 => .U
  | 1 => .K
  | 2 => .H
  | _ => .F

/-- Whether a world is the sealed one. -/
def isSealed : World → Bool
  | .sealedW => true
  | .openW => false

/-- The key of a system register: the sealed bank exists for levels U and K only (R95). -/
def sysKey (w : World) (lvl idx : Nat) : Nat := (if isSealed w && decide (lvl < 2) then 1024 else 0) + lvl * 256 + idx

/-- X_STATUS, X_TVEC and the other registers of a level, as MFS returns them. -/
def Core.sys (c : Core) (w : World) (lvl idx : Nat) : W64 := NMap.get 0 c.sysr (sysKey w lvl idx)
/-- A core with a system register written. -/
def Core.setSys (c : Core) (w : World) (lvl idx : Nat) (v : W64) : Core :=
  { c with sysr := NMap.set 0 c.sysr (sysKey w lvl idx) v }
/-- The value in force of a sync-class register (R84). -/
def Core.inForce (c : Core) (w : World) (lvl idx : Nat) : W64 := NMap.get 0 c.eff (sysKey w lvl idx)

/-- The sync-class registers (Table 03-7): TVEC, PTBR, XLAT, CTL, and H_SPTBR. -/
def syncClass (lvl idx : Nat) : Bool :=
  (lvl == 1 && [1, 8, 9, 10].contains idx) || (lvl == 2 && [1, 8, 9, 10, 11].contains idx) || (lvl == 3 && idx == 1)

/-- g register `r` (R50). -/
def Core.getG (c : Core) (r : Nat) : W64 := if r = 0 then 0 else NMap.get 0 c.g r
/-- A result written to g register `r`; g0 discards it (R50). -/
def Core.setG (c : Core) (r : Nat) (v : W64) : Core := if r = 0 then c else { c with g := NMap.set 0 c.g r v }
/-- v register `r`. -/
def Core.getV (c : Core) (r : Nat) : W256 := NMap.get 0 c.v r
def Core.setV (c : Core) (r : Nat) (v : W256) : Core := { c with v := NMap.set 0 c.v r v }
/-- p register `r` (R51). -/
def Core.getP (c : Core) (r : Nat) : W32 := if r = 0 then 0xFFFFFFFF#32 else NMap.get 0 c.p r
def Core.setP (c : Core) (r : Nat) (v : W32) : Core := if r = 0 then c else { c with p := NMap.set 0 c.p r v }

/-- The core after an instruction that falls through. -/
def Core.advance (c : Core) : Core := { c with pc := c.pc + 4 }

/-- The requester a core is. -/
def coreReq (s : State) (n : Nat) : Req := .core n (s.core n).level (s.core n).world

/-- Whether core `n` executes instructions now: a core of the part that runs and waits for nothing. -/
def coreReady (s : State) (n : Nat) : Bool :=
  decide (n < 144) && decide ((s.core n).run = .running) && (s.core n).wait.isNone

/-! ## Pairs (chapter 10) -/

/-- Whether pair `k` is out of reset and neither halted nor frozen (Table 10-2); none is in manufacturing test (R679). -/
def pairAlive (s : State) (k : Nat) : Bool :=
  decide (k < 4) && !(decide (k = 0) && s.power.fusing) && s.regF .STRAP_STATUS 4 3 == 0 && (fld (s.reg .CXS_CTL k) 0 0 == 0) && (fld (s.reg .CXS_CTL k) 7 6 == 0)

/-- A CX_ register as MFS returns it, and in force (R434). -/
def Pair.cx (p : Pair) (i : Nat) : W32 := NMap.get 0 p.cxr i
def Pair.setCx (p : Pair) (i : Nat) (v : W32) : Pair := { p with cxr := NMap.set 0 p.cxr i v }
def Pair.cxEff (p : Pair) (i : Nat) : W32 := NMap.get 0 p.eff i

/-- CX_STATUS.world in force: true for world T. -/
def Pair.worldT (p : Pair) : Bool := (p.cxEff 0).getLsbD 7

/-- The level an input is served at (R424). -/
def Pair.inputLevel (p : Pair) (i : Nat) : Nat := ((p.cx (0x0C + i / 16)).toNat >>> (2 * (i % 16))) % 4 + 1

/-- The level in CX_STATUS.lvl; 5 to 7 act as 4 (Table 10-12). -/
def Pair.lvl (p : Pair) : Nat := min 4 ((p.cx 0).toNat / 16 % 8)

/-- The enabled pending input that R425 chooses among those above the current level: the highest level, then the lowest number. -/
def Pair.chosen (p : Pair) : Option Nat :=
  let en := (p.cx 8).toNat + (p.cx 9).toNat * 2 ^ 32
  let ok := (List.range 64).filter fun i => p.pend.getLsbD i && en.testBit i && decide (p.lvl < p.inputLevel i)
  let top := ok.foldl (fun m i => max m (p.inputLevel i)) 0
  ok.find? fun i => p.inputLevel i == top

/-- Whether pair `k` executes instructions now: out of reset, not stopped, waiting for no load, and in WFI only when an
interrupt above its level is pending. -/
def pairReady (s : State) (k : Nat) : Bool :=
  pairAlive s k && (s.pair k).wait.isNone && (!(s.pair k).waiting || (s.pair k).chosen.isSome)

/-- Raises interrupt input `i` of pair `k` (Table 14-3). -/
def raiseCx (k i : Nat) (s : State) : State := s.modPair k fun p => { p with pend := setBit p.pend i true }

/-! ## Error banks (14.3) -/

/-- The code of a class (Table 14-7). -/
def classNum : ErrClass → Nat
  | .corrected => 0
  | .deferred => 1
  | .uncorrected => 2
  | .fatal => 3

/-- The status word of a new record (Table 14-7). A sealed record of a core bank has addrv and miscv 0 (R599). -/
def statusWord (b : BankId) (e : ErrRec) (lost : Bool) : W64 :=
  let hide := e.secret && (match b with | .core _ => true | _ => false)
  w64 (2 ^ 63 + lost.toNat * 2 ^ 62 + classNum e.cls * 2 ^ 60 + (e.addr.isSome && !hide).toNat * 2 ^ 59
    + (e.misc.isSome && !hide).toNat * 2 ^ 58 + e.inj.toNat * 2 ^ 57 + e.secret.toNat * 2 ^ 56
    + e.stop.toNat * 2 ^ 48 + e.unit.toNat * 2 ^ 40 + e.type.toNat * 2 ^ 32 + e.info.toNat)

/-- The slot a record takes: merge, free, or replace (R594); none where it is discarded. -/
inductive Slot where
  | merge (k : Nat) | take (k : Nat) | replace (k : Nat) | lost
  deriving DecidableEq, Repr

/-- Whether slot `k` of a bank holds a record. -/
def slotValid (s : State) (base k : Nat) : Bool := (s.reg .ERR_STATUS base k).getLsbD 63

/-- The class of the record in slot `k`. -/
def slotClass (s : State) (base k : Nat) : Nat := s.regF .ERR_STATUS 61 60 base k

/-- Whether `a` is an older record of lower class to replace than `b`: lower class, then older, then lower slot (R594). -/
def lowerSlot (s : State) (base a b : Nat) : Bool :=
  decide (slotClass s base a < slotClass s base b) ||
    (slotClass s base a == slotClass s base b &&
      decide ((s.reg .ERR_TIME base a).toNat < (s.reg .ERR_TIME base b).toNat))

/-- R594: where a new record goes. -/
def placeRecord (s : State) (b : BankId) (e : ErrRec) : Slot :=
  let base := bankBase b
  let w := statusWord b e false
  let same := fun k => slotValid s base k && slotClass s base k == 0 &&
    s.regF .ERR_STATUS 55 32 base k == fld w 55 32 && s.regF .ERR_STATUS 15 0 base k == fld w 15 0 &&
    (s.reg .ERR_ADDR base k).toNat % 2 ^ 52 / 64 == (e.addr.getD 0).toNat % 2 ^ 52 / 64
  match (if e.cls = .corrected then (List.range 4).find? same else none) with
  | some k => .merge k
  | none =>
    match (List.range 4).find? (fun k => !slotValid s base k) with
    | some k => .take k
    | none =>
      let v := [1, 2, 3].foldl (fun m k => if lowerSlot s base k m then k else m) 0
      if slotClass s base v < classNum e.cls then .replace v else .lost

/-- Writes a record into slot `k`. -/
def writeRecord (s : State) (b : BankId) (e : ErrRec) (k : Nat) (lost : Bool) : State :=
  let base := bankBase b
  let hide := e.secret && (match b with | .core _ => true | _ => false)
  (((s.setReg .ERR_STATUS (statusWord b e lost) base k).setReg .ERR_ADDR (if hide then 0 else e.addr.getD 0) base k).setReg
    .ERR_MISC (if hide then 0 else e.misc.getD 0) base k).setReg .ERR_TIME (w64 (s.timeUs % 2 ^ 48)) base k

/-- R596: a placed record signals CX2 on the input of its class while its enable is 1; unit 0x50 or 0x51 in the SV2 bank
signals CX0 as well (input 3). -/
def signalRecord (b : BankId) (e : ErrRec) (s : State) : State :=
  let s := if (s.reg .ERR_CTL (bankBase b)).getLsbD (classNum e.cls) then
      raiseCx 2 (match e.cls with | .fatal => 0 | .corrected => 2 | _ => 1) s
    else s
  if b = .sv 2 ∧ (e.unit = 0x50 ∨ e.unit = 0x51) then raiseCx 0 3 s else s

/-- Whether an injection is armed in a bank for a unit and one of some kinds, on a line or any line (R603, Table 14-13). -/
def injArmed (s : State) (b : BankId) (unit : Nat) (kinds : List Nat) (pa : Nat) : Bool :=
  let v := s.reg .ERR_INJ (bankBase b)
  let kind := if 6 ≤ fld v 58 56 then 0 else fld v 58 56
  bit v 63 && fld v 55 48 == unit && kinds.contains kind &&
    (!bit v 0 || fld (s.reg .ERR_INJA (bankBase b)) 51 6 == pa % 2 ^ 52 / 64)

/-- The kinds of injection that give an error of a type (Tables 14-8, 14-13). -/
def injKinds (type : Nat) : List Nat :=
  match type with
  | 0x01 => [0]
  | 0x02 => [1, 3]
  | 0x03 => [2]
  | 0x07 => [4]
  | 0x08 => [5]
  | _ => []

/-- A record that an armed injection accounts for has inj = 1, and arm clears (R603). -/
def takeInj (s : State) (b : BankId) (e : ErrRec) : ErrRec × State :=
  if injArmed s b e.unit.toNat (injKinds e.type.toNat) (e.addr.getD 0).toNat then
    ({ e with inj := true }, s.setRegF .ERR_INJ 63 63 0 (bankBase b))
  else (e, s)

/-- What a record leaves outside the bank: the full record of a sealed access for CX0 (R599), and the structure of a fatal one,
which takes no part in Finish (R601). -/
def noteRecord (b : BankId) (e : ErrRec) (s : State) : State :=
  let s := if e.cls = .fatal ∧ !s.ras.dead.contains (b, e.unit.toNat) then
      { s with ras := { s.ras with dead := s.ras.dead ++ [(b, e.unit.toNat)] } }
    else s
  match b, e.secret with
  | .core _, true => { s with sealedRecs := s.sealedRecs ++ [(b, e)] }
  | _, _ => s

/-- An error reaches a bank (R594 to R599). -/
def record (b : BankId) (e : ErrRec) (s : State) : State :=
  let base := bankBase b
  let x := takeInj s b e
  let e := x.1
  let s := noteRecord b e x.2
  match placeRecord s b e with
  | .merge k => (s.bumpReg .ERR_STATUS 31 16 base k).setReg .ERR_TIME (w64 (s.timeUs % 2 ^ 48)) base k
  | .take k => signalRecord b e (writeRecord s b e k false)
  | .replace k => signalRecord b e (writeRecord s b e k true)
  | .lost =>
    let s := s.bumpReg .ERR_CTL 47 32 base
    [0, 1, 2, 3].foldl (fun s k => s.setRegF .ERR_STATUS 62 62 1 base k) s

/-- A record with the common fields, no address and no detail. -/
def mkRec (cls : ErrClass) (stop unit type info : Nat) : ErrRec :=
  { cls, addr := none, misc := none, inj := false, secret := false, stop := BitVec.ofNat 8 stop,
    unit := BitVec.ofNat 8 unit, type := BitVec.ofNat 8 type, info := BitVec.ofNat 16 info }

/-- ERR_ADDR of a physical address under a key ID (R593). -/
def errAddr (key pa : Nat) : W64 := w64 (key % 4096 * 2 ^ 52 + pa % 2 ^ 52)

/-- A record of core `n` concerning an access at a physical address (R593, R599): VMID or partition, stop and virtual pc. -/
def coreErr (s : State) (n : Nat) (cls : ErrClass) (unit type info key pa : Nat) : ErrRec :=
  let c := s.core n
  let sec := isSealed c.world
  let who := if sec then (match c.running with | some r => r.part | none => 0) else fld (c.sys .openW 2 9) 47 32
  { mkRec cls (coreStop n) unit type info with
    addr := some (errAddr key pa)
    misc := some (w64 (who % 2 ^ 16 * 2 ^ 48 + coreStop n * 2 ^ 40 + fld c.pc 41 2))
    secret := sec }

/-- Table 14-19: a refused register access, logged in the bank the rule names. -/
def refuse (b : BankId) (stop : Nat) (r : Req) (s : State) : State :=
  record b (mkRec .corrected stop 0x53 0x10 (reqStop r)) s

/-- Table 14-19: a decode abort, unreachable route or missing home, in the fabric bank of the requester's stop. -/
def logAbort (stop addr : Nat) (s : State) : State :=
  record (.fabric stop) { mkRec .uncorrected stop 0x20 0x05 (1 * 2 ^ 8) with addr := some (w64 (addr % 2 ^ 52)) } s

/-! ## Interrupt delivery (14.1) -/

/-- The world and level of a controller. -/
def ctlKey : Controller → World × Nat
  | .openK => (.openW, 1)
  | .openH => (.openW, 2)
  | .sealedK _ => (.sealedW, 1)

/-- Sets the pending bit of vector `v` in a controller of a core (R579). -/
def Core.setPend (c : Core) (w : World) (lvl v : Nat) : Core :=
  c.setSys w lvl (0x20 + v / 64) (setBit (c.sys w lvl (0x20 + v / 64)) (v % 64) true)

/-- R582: an entry has become occupied; held_vec is delivered to the core's own H controller when it is not 0. -/
def Core.raiseHeld (c : Core) : Core :=
  let v := fld (c.sys .openW 2 0x2C) 39 32
  if v = 0 then c else c.setPend .openW 2 v

/-- The held entry of partition `p`, or the lowest free one (R581). -/
def Core.heldSlot (c : Core) (p : Nat) : Option (Nat × Bool) :=
  match (List.range 16).find? (fun i => match NMap.find? c.held i with | some h => h.part == p | none => false) with
  | some i => some (i, false)
  | none => ((List.range 16).find? fun i => (NMap.find? c.held i).isNone).map fun i => (i, true)

/-- R581: a sealed delivery carrying partition `p`. -/
def deliverSealed (n p v : Nat) (s : State) : State :=
  let c := s.core n
  if c.running.any (fun r => r.part == p) then s.setCore n (c.setPend .sealedW 1 v)
  else match c.heldSlot p with
    | some (i, fresh) =>
      let old : BitVec 256 := match NMap.find? c.held i with | some h => h.vecs | none => 0
      let c := { c with held := NMap.put c.held i ⟨p, old ||| (1#256 <<< v)⟩ }
      s.setCore n (if fresh then c.raiseHeld else c)
    | none =>
      let h := c.sys .openW 2 0x2C
      let s := s.setCore n (c.setSys .openW 2 0x2C (setFld h 63 48 (satAdd (fld h 63 48) 1 0xFFFF)))
      record (.core n) (mkRec .uncorrected (coreStop n) 0x20 0x13 0) s

/-- Whether a core number names an in-service core (R579). -/
def coreInService (s : State) (n : Nat) : Bool :=
  decide (n < 144) && (s.reg .STOP_ID (coreStop n)).getLsbD 32

/-- R579: a delivery of vector `v` from stop `src`; vector 0 or a core not in service is discarded and logged in the fabric
bank of the sending stop. -/
def deliver (src n : Nat) (ctl : Controller) (v : Nat) (s : State) : State :=
  if v % 256 = 0 ∨ !coreInService s n then
    record (.fabric src) (mkRec .uncorrected src 0x20 0x13 0) s
  else match ctl with
    | .openK => s.modCore n fun c => c.setPend .openW 1 (v % 256)
    | .openH => s.modCore n fun c => c.setPend .openW 2 (v % 256)
    | .sealedK p => deliverSealed n p (v % 256) s

/-- R585: system interrupt source `i` raises one delivery when enabled. -/
def sysIrq (i : Nat) (s : State) : State :=
  let v := s.reg .SYS_IRQ 0 i
  if bit v 63 then deliver 0x72 (fld v 23 16) (if bit v 24 then .openH else .openK) (fld v 7 0) s else s

/-- Vector `v` is deliverable in a controller (R575). -/
def Core.deliverable (c : Core) (w : World) (lvl v : Nat) : Bool :=
  bit (c.sys w lvl (0x20 + v / 64)) (v % 64) && bit (c.sys w lvl (0x24 + v / 64)) (v % 64) &&
    decide (fld (c.sys w lvl 0x28) 7 0 < v)

/-- The highest deliverable vector of a controller, 0 for none (X_VTOP, Table 14-1). -/
def Core.vtop (c : Core) (w : World) (lvl : Nat) : Nat :=
  (List.range 256).foldl (fun m v => if c.deliverable w lvl v then v else m) 0

/-! ## Packets (06.2) -/

/-- A packet with the fields most packets leave 0. -/
def mkPacket (op : Op) (src dst tid addr key : Nat) (from_ to_ : Unit) : Packet :=
  { op, src, dst, from_, to_, tid, addr, key, status := 0, poison := false, fin := false, flag := false, data := 0,
    mask := 0, fwd := none, arg := 0 }

/-- A packet enters the fabric. -/
def send (p : Packet) (s : State) : State := s.modFab fun f => { f with net := f.net ++ [p] }

/-- The lowest transaction number no outstanding request of the stop uses (Table 06-2). -/
def freshTid (s : State) (stop : Nat) : Nat :=
  let used := (s.fab.outs.filter fun o => o.stop == stop).map Out.tid
  ((List.range (used.length + 1)).find? fun t => !used.contains t).getD 0

/-- The response an aborted request receives: the data, register or plain completion its requester waits for. -/
def abortReply (p : Packet) (status : Nat) : Packet :=
  let op : Op := match p.op with
    | .RdS | .RdO | .RdOnce | .RdDev | .MemRd => .DatRd
    | .RegRd | .RegWr => .RegCmp
    | _ => .Cmp
  { mkPacket op p.dst p.src p.tid p.addr p.key p.to_ p.from_ with status, poison := decide (status ≠ 0) }

/-- The physical address a request names: of its line, of a device, or of a register. -/
def requestPa (op : Op) (to_ : Unit) (addr : Nat) : Nat :=
  match op, to_ with
  | .RegRd, _ | .RegWr, _ => 0xFF00000000000 + addr
  | .RdDev, _ | .WrPtl, .io _ => addr
  | _, _ => addr * 64

/-- A request leaves a stop: it takes a transaction number and is recorded as outstanding (R259). A destination whose route
entry has kind 3 is answered with status 1 by the requester's own NI and logged (R246). -/
def request (op : Op) (who to_ : Unit) (src dst addr key : Nat) (f : Packet → Packet) (s : State) : State :=
  let t := freshTid s src
  let p := f (mkPacket op src dst t addr key who to_)
  let s := s.modFab fun b => { b with outs := b.outs ++ [⟨src, t, who, op, addr, key, dst, false, 0⟩] }
  if s.regF .NI_RT 1 0 src dst = 3 then send (abortReply p 1) (logAbort src (requestPa op to_ addr) s) else send p s

/-- How the port of a stop answers a request that arrives for its island: 0 takes it, else the status of Table 06-12. -/
def portStatus (s : State) (stop : Nat) : Nat :=
  match s.regF .NI_PORT 2 0 stop with
  | 3 | 4 => 2
  | 5 => 3
  | _ => 0

/-- Removes the first packet that satisfies `q`. -/
def takePacket (q : Packet → Bool) (s : State) : Option (Packet × State) :=
  match s.fab.net.find? q with
  | none => none
  | some p => some (p, s.modFab fun f => { f with net := f.net.erase p })

/-- The first outstanding request of a stop with a transaction number. -/
def findOut (s : State) (stop tid : Nat) : Option Out :=
  s.fab.outs.find? fun o => o.stop == stop && o.tid == tid

/-- An outstanding request ends. -/
def dropOut (stop tid : Nat) (s : State) : State :=
  s.modFab fun f => { f with outs := f.outs.filter fun o => !(o.stop == stop && o.tid == tid) }

/-- An event enters NI_WD_LOG of a stop: the first since valid was cleared stays, every one is counted (Table 06-18). -/
def wdLog (stop kind tid peer : Nat) (s : State) : State :=
  let v := s.reg .NI_WD_LOG stop
  let n := satAdd (fld v 31 16) 1 0xFFFF
  if bit v 63 then s.setReg .NI_WD_LOG (setFld v 31 16 n) stop
  else s.setReg .NI_WD_LOG (w64 (2 ^ 63 + kind * 2 ^ 60 + tid % 4096 * 2 ^ 48 + peer % 256 * 2 ^ 40 + n * 2 ^ 16)) stop

/-- R263: a response that matches no outstanding request, or a held number, is discarded and logged with kind 3. -/
def unexpected (stop tid peer : Nat) (s : State) : State :=
  record (.fabric stop) (mkRec .corrected stop 0x20 0x08 (3 * 2 ^ 8 + peer % 256)) (wdLog stop 3 tid peer s)

/-- A register answer to a requester. -/
def answerReg (p : Packet) (status : Nat) (v : W64) (s : State) : State :=
  send { mkPacket .RegCmp p.dst p.src p.tid p.addr p.key p.to_ p.from_ with status, data := v.setWidth 512 } s

/-! ## The end of every command -/

/-- What follows from the registers at all times (R451 and chapters 11, 14): input 62 of CX3 is its mailbox doorbell. -/
def settle (s : State) : State :=
  s.modPair 3 fun p => { p with pend := setBit p.pend 62 ((s.reg .CX3_MBDB).getLsbD 0) }

/-- A command ends in the next state: its effect, with the outputs that follow from it; the queue is the step's affair. -/
def answer (s₀ s : State) : Host.Outcome State Fault Refusal := .next { settle s with pending := s₀.pending }

end Sys2Proof.Machine
end

