-- ==== Sys2Proof/Machine/Counts.lean ====
section
/-! DEFINITION. Erg: counting, sampling and what a retiring instruction leaves in them (16.1 to 16.5, 03.9). -/

namespace Sys2Proof.Machine

/-! ## Debug permission (Table 03-24) -/

/-- Whether SEC_DBG_EN permits an action on a core: bit `o` governs the open world, bit `e` a partition. -/
def debugAllows (s : State) (c : Core) (o e : Nat) : Bool :=
  let d := s.reg .SEC_DBG_EN
  if isSealed c.world then
    bit d e && (fld d 31 16 == 0 || c.running.any fun r => r.part == fld d 31 16)
  else bit d o

/-- Non-invasive debug of the code a core runs: trace, counting, sampling. -/
def nonInvasive (s : State) (c : Core) : Bool := debugAllows s c 1 3

/-- Invasive debug: halt, step, register and memory access by the debug port. -/
def invasive (s : State) (c : Core) : Bool := debugAllows s c 0 2

/-! ## Core counters (16.1, 16.2) -/

/-- What an Erg register reads after reset: X_ERGSMPCTL.k is 8 (Table 16-6). -/
def ergCold (i : Nat) : W64 := if i = 0x60 then 0x0008000000000000 else 0

/-- Erg register `i` of a core (R643). -/
def Core.erg (c : Core) (i : Nat) : W64 := NMap.get (ergCold i) c.sysr (4096 + i)
/-- A core with an Erg register written. -/
def Core.setErg (c : Core) (i : Nat) (v : W64) : Core := { c with sysr := NMap.set (ergCold i) c.sysr (4096 + i) v }

/-- R651: the counters of the core stand still. -/
def Core.ergStopped (c : Core) : Bool := bit (c.erg 0x41) 16 || bit (c.erg 0x41) 0

/-- R646, R648: whether a counter with a selection counts an event of code of core `c`. -/
def Core.selects (c : Core) (sel : W64) (ev : Nat) (kase : Option Nat) : Bool :=
  decide (fld sel 9 0 = ev) && bit sel (34 + levelNum c.level) && bit sel (if isSealed c.world then 39 else 38) &&
    (match kase with | none => true | some k => fld sel 31 24 == 0 || bit sel (24 + k))

/-- R649: a counter of a core adds `k`; a wrap sets its overflow bit, delivers its owner's vector and, under fov, freezes the
core. -/
def ergAdd (n i k : Nat) (s : State) : State :=
  let c := s.core n
  let v := fld (c.erg (0x50 + i)) 47 0 + k
  let c := c.setErg (0x50 + i) (w64 (v % 2 ^ 48))
  if v < 2 ^ 48 then s.setCore n c
  else
    let g := c.erg 0x41
    let c := c.setErg 0x42 (setBit (c.erg 0x42) i true)
    let s := s.setCore n (if bit g 17 then c.setErg 0x41 (setBit g 16 true) else c)
    if bit (c.erg (0x48 + i)) 41 then
      (if bit g (24 + i) then deliver (coreStop n) n .openK (fld g 47 40) s
       else deliver (coreStop n) n .openH (fld g 55 48) s)
    else s

/-- An event occurs `k` times in one cycle in code of core `n` as `c` gives its level and world. `kase` is the unit-mask bit of
its case (Table 16-8). An edge counter adds 1: commands of one core lie in cycles with others between them (log entry 9). -/
def ergEvent (n : Nat) (c : Core) (ev : Nat) (kase : Option Nat) (k : Nat) (s : State) : State :=
  if k = 0 ∨ !nonInvasive s c then s
  else (List.range 8).foldl (fun s i =>
    let d := s.core n
    let sel := d.erg (0x48 + i)
    if !d.ergStopped && c.selects sel ev kase then ergAdd n i (if bit sel 40 then 1 else k) s else s) s

/-! ## Sampling (16.4) -/

/-- What a micro-operation shows of itself when it ends: the class, branch, TLB and source codes of Table 16-4, its number of
micro-operations (R134), and a data address. -/
structure Retired where
  cls : Nat
  uops : Nat := 1
  va : W64 := 0
  branch : Nat := 0
  tlb : Nat := 0
  src : Nat := 0
  deriving DecidableEq, Repr

/-- The period of sampling (Table 16-6). -/
def smpPeriod (ctl : W64) : Nat := 2 ^ max 8 (min 20 (fld ctl 52 48))

/-- The sampling owner's vector is delivered (R659). -/
def smpNotify (n : Nat) (s : State) : State :=
  let c := s.core n
  deliver (coreStop n) n (if bit (c.erg 0x41) 19 then .openK else .openH) (fld (c.erg 0x60) 47 40) s

/-- X_ERGSMPSTAT.lost grows by one. -/
def smpLost (n : Nat) (s : State) : State :=
  s.modCore n fun c => let v := c.erg 0x64; c.setErg 0x64 (setFld v 47 32 (satAdd (fld v 47 32) 1 0xFFFF))

/-- R655, R656: a tagged micro-operation ends with kind 0 (retired), 1 (discarded) or 2 (trapped). Cycle counts are free values. -/
def sampleRecord (n : Nat) (c : Core) (r : Retired) (kind : Nat) (s : State) : State :=
  if !nonInvasive s c then smpLost n s
  else if 64 ≤ (s.core n).smp.recs.length then smpLost n s
  else
    let d1 := s.draw
    let d2 := d1.2.draw
    let s := d2.2
    let k := s.core n
    let seq := w64 (k.smp.seq % 2 ^ 32)
    let w : List W64 :=
      if kind = 1 then [0, k.erg 0x40, 0, 0, w64 (1 * 2 ^ 18), 0, seq, 0]
      else [c.pc, k.erg 0x40, d1.1, r.va,
        w64 (fld (c.sys .openW 2 9) 47 32 * 2 ^ 48 + fld (c.sys c.world 1 9) 63 48 * 2 ^ 32 + kind * 2 ^ 18
          + levelNum c.level * 2 ^ 16 + r.cls * 2 ^ 12 + r.branch * 2 ^ 8 + r.tlb * 2 ^ 4 + r.src),
        (if r.cls = 2 then d2.1 &&& 0xFFFFFFFF else 0), seq, 0]
    let s := s.modCore n fun k => { k with smp := { k.smp with recs := k.smp.recs ++ [w], seq := k.smp.seq + 1 } }
    let k := s.core n
    let thr := min 64 (fld (k.erg 0x60) 6 0)
    if thr ≠ 0 ∧ thr ≤ k.smp.recs.length then smpNotify n s else s

/-- R654: renamed micro-operations are divided into periods, and one of each is tagged at a free offset. -/
def sampleUops (n : Nat) (c : Core) (r : Retired) (kind : Nat) (s : State) : State :=
  let ctl := (s.core n).erg 0x60
  if !bit ctl 63 then s
  else
    let m := (s.core n).smp
    let P := smpPeriod ctl
    let after := m.count + r.uops
    let s := if m.count ≤ m.tag ∧ m.tag < after then sampleRecord n c r kind s else s
    if after < P then s.modCore n fun k => { k with smp := { k.smp with count := after } }
    else
      let d := s.draw
      let rest := after - P
      d.2.modCore n fun k => { k with smp := { k.smp with count := rest, tag := rest + d.1.toNat % (P - rest) } }

/-- What Erg sees of an instruction of core `n` that retires; `c` is the core as the instruction found it (Table 16-8). -/
def retire (n : Nat) (c : Core) (r : Retired) (s : State) : State :=
  let s := ergEvent n c 0x001 none 1 (ergEvent n c 0x002 none r.uops (ergEvent n c 0x005 (some 0) r.uops s))
  let s := if 0 < r.src ∧ r.src < 9 ∧ r.cls = 2 then ergEvent n c 0x006 (some r.src) 1 s else s
  let s := if r.tlb = 2 ∨ r.tlb = 3 then ergEvent n c 0x007 (some (r.tlb - 2)) 1 s else s
  sampleUops n c r 0 s

/-- A wrong-path instruction is discarded: wasted slots and micro-operations, and a sample of kind 1 (R652, R655, R671). -/
def discard (n : Nat) (c : Core) (r : Retired) (s : State) : State :=
  sampleUops n c r 1 (ergEvent n c 0x080 none r.uops (ergEvent n c 0x005 (some 1) r.uops s))

/-! ## Uncore counters (16.5) -/

/-- The stop of a counting block. -/
def ergStop : ErgUnit → Nat
  | .core n => coreStop n
  | .tile t => tileStop t
  | .mc n => mcStop n
  | .io n => ioStop n
  | .probe p => p

/-- R662: an event of a request under a key ID other than 0 needs the sealed non-invasive enable for every partition. -/
def uncAllows (s : State) (key : Nat) : Bool :=
  key == 0 || (bit (s.reg .SEC_DBG_EN) 3 && fld (s.reg .SEC_DBG_EN) 31 16 == 0)

/-- R663, R649: an uncore counter adds `k`. -/
def uncAdd (b i k : Nat) (stop : Nat) (s : State) : State :=
  let v := s.regF .UNC_CNT 47 0 b i + k
  let s := s.setReg .UNC_CNT (w64 (v % 2 ^ 48)) b i
  if v < 2 ^ 48 then s
  else
    let ctl := s.reg .UNC_CTL b
    let s := s.setReg .UNC_CTL (setBit ctl (8 + i) true) b
    if bit ctl 63 then deliver stop (fld ctl 47 40) .openH (fld ctl 55 48) s else s

/-- An event of an uncore block (Table 16-8) occurs `k` times under a key ID; `kases` are the unit-mask bits of its cases. -/
def uncEvent (u : ErgUnit) (ev : Nat) (kases : List Nat) (k key : Nat) (s : State) : State :=
  let b := uncBase u
  if k = 0 ∨ !uncAllows s key ∨ s.frozen.contains (ergStop u) ∨ bit (s.reg .UNC_CTL b) 0 then s
  else (List.range 4).foldl (fun s i =>
    let sel := s.reg .UNC_SEL b i
    let on := fld sel 9 0 == ev && (kases.isEmpty || fld sel 31 24 == 0 || kases.any fun m => bit sel (24 + m))
    if on then uncAdd b i (if bit sel 40 then 1 else k) (ergStop u) s else s) s

end Sys2Proof.Machine
end

