-- ==== Sys2Proof/Machine/Crypto.lean ====
section
/-! DEFINITION. The published algorithms the part applies to data: CRC-32C, AES-256 and XTS, SHA-384, HMAC and ECDSA P-384
(Table 00-2, R4, R310). -/

namespace Sys2Proof.Machine

/-! ## CRC-32C (Castagnoli, reflected polynomial 0x82F63B78) -/

/-- One bit of the division. -/
def crcBit (c : Nat) : Nat := if c % 2 = 1 then (c / 2) ^^^ 0x82F63B78 else c / 2

/-- The register after one more byte. -/
def crcByte (c : Nat) (b : Byte) : Nat := (List.range 8).foldl (fun c _ => crcBit c) (c ^^^ b.toNat)

/-- The running register over bytes, without the final complement. -/
def crcRun (c : Nat) (bs : List Byte) : Nat := bs.foldl crcByte c

/-- CRC-32C of bytes. -/
def crc32c (bs : List Byte) : Nat := crcRun 0xFFFFFFFF bs ^^^ 0xFFFFFFFF

/-! ## AES-256 (FIPS 197); a block is 16 bytes as numbers -/

/-- The S-box, byte `i` at bits [8i+7:8i]. -/
def sboxTable : Nat :=
  0x16bb54b00f2d99416842e6bf0d89a18cdf2855cee9871e9b948ed9691198f8e19e1dc186b95735610ef6034866b53e708a8bbd4b1f74dde8c6b4a61c2e2578ba08ae7a65eaf4566ca94ed58d6d37c8e779e4959162acd3c25c2406490a3a32e0db0b5ede14b8ee4688902a22dc4f816073195d643d7ea7c41744975fec130ccdd2f3ff1021dab6bcf5389d928f40a351a89f3c507f02f94585334d43fbaaefd0cf584c4a39becb6a5bb1fc20ed00d153842fe329b3d63b52a05a6e1b1a2c830975b227ebe28012079a059618c323c7041531d871f1e5a534ccf73f362693fdb7c072a49cafa2d4adf04759fa7dc982ca76abd7fe2b670130c56f6bf27b777c63

/-- The inverse S-box, likewise. -/
def invSboxTable : Nat :=
  0x7d0c2155631469e126d677ba7e042b17619953833cbbebc8b0f52aae4d3be0a0ef9cc9939f7ae52d0d4ab519a97f51605fec8027591012b131c7078833a8dd1ff45acd78fec0db9a2079d2c64b3e56fc1bbe18aa0e62b76f89c5291d711af1476edf751ce837f9e28535ade72274ac9673e6b4f0cecff297eadc674f4111913a6b8a130103bdafc1020f3fca8f1e2cd00645b3b80558e4f70ad3bc8c00abd890849d8da75746155edab9edfd5048706c92b6655dcc5ca4d41698688664f6f87225d18b6d49a25b76b224d92866a12e084ec3fa420b954cee3d23c2a632947b54cbe9dec444438e3487ff2f9b8239e37cfbd7f3819ea340bf38a53630d56a0952

def sbox (x : Nat) : Nat := (sboxTable >>> (8 * x)) % 256
def invSbox (x : Nat) : Nat := (invSboxTable >>> (8 * x)) % 256

/-- Multiplication by x in GF(2^8). -/
def xtime (a : Nat) : Nat := if a < 128 then 2 * a else (2 * a) ^^^ 0x11b

/-- Multiplication in GF(2^8) by a constant below 16. -/
def gmul (a k : Nat) : Nat :=
  (if k % 2 = 1 then a else 0) ^^^ (if k / 2 % 2 = 1 then xtime a else 0) ^^^
    (if k / 4 % 2 = 1 then xtime (xtime a) else 0) ^^^ (if k / 8 % 2 = 1 then xtime (xtime (xtime a)) else 0)

/-- Exclusive or of two byte lists. -/
def xorBytes (a b : List Nat) : List Nat := List.zipWith (· ^^^ ·) a b

/-- One column mixed with the circulant row `m`. -/
def mixCol (m : List Nat) (c : List Nat) : List Nat :=
  (List.range 4).map fun r => (List.range 4).foldl (fun a i => a ^^^ gmul (c.getD i 0) (m.getD ((i + 4 - r) % 4) 0)) 0

/-- All four columns mixed. -/
def mixCols (m : List Nat) (b : List Nat) : List Nat :=
  (List.range 4).flatMap fun c => mixCol m ((b.drop (4 * c)).take 4)

/-- Rows shifted left, or right for decryption. -/
def shiftRows (back : Bool) (b : List Nat) : List Nat :=
  (List.range 16).map fun i => b.getD ((i % 4 + 4 * ((i / 4 + (if back then 4 - i % 4 else i % 4)) % 4))) 0

/-- The next word of the AES-256 key schedule, from the eight before it (oldest first) and its number. -/
def nextKeyWord (w : List (List Nat)) (i : Nat) : List Nat :=
  let t := w.getD 7 []
  let t := if i % 8 = 0 then
      xorBytes ((t.drop 1 ++ t.take 1).map sbox) [([1, 2, 4, 8, 16, 32, 64].getD (i / 8 - 1) 0), 0, 0, 0]
    else if i % 8 = 4 then t.map sbox else t
  xorBytes (w.getD 0 []) t

/-- The 60 words of the key schedule. -/
def keyWords (key : List Nat) : List (List Nat) :=
  let w0 := (List.range 8).map fun i => (key.drop (4 * i)).take 4
  ((List.range 52).foldl (fun (a : List (List Nat) × List (List Nat)) i =>
    let n := nextKeyWord a.1 (i + 8)
    (a.1.drop 1 ++ [n], a.2 ++ [n])) (w0, w0)).2

/-- The 15 round keys. -/
def roundKeys (key : List Nat) : List (List Nat) :=
  let w := keyWords key
  (List.range 15).map fun r => ((w.drop (4 * r)).take 4).flatten

/-- AES-256 encryption of one block under a key schedule. -/
def aesEnc (rk : List (List Nat)) (b : List Nat) : List Nat :=
  let b := (List.range 13).foldl (fun b r =>
    xorBytes (mixCols [2, 3, 1, 1] (shiftRows false (b.map sbox))) (rk.getD (r + 1) [])) (xorBytes b (rk.getD 0 []))
  xorBytes (shiftRows false (b.map sbox)) (rk.getD 14 [])

/-- AES-256 decryption of one block. -/
def aesDec (rk : List (List Nat)) (b : List Nat) : List Nat :=
  let b := xorBytes b (rk.getD 14 [])
  let b := (List.range 13).foldl (fun b r =>
    mixCols [14, 11, 13, 9] (xorBytes ((shiftRows true b).map invSbox) (rk.getD (13 - r) []))) b
  xorBytes ((shiftRows true b).map invSbox) (rk.getD 0 [])

/-! ## XTS (IEEE 1619, R310) -/

/-- The bytes of a 128-bit number, little-endian. -/
def block16 (n : Nat) : List Nat := (List.range 16).map fun i => (n >>> (8 * i)) % 256

/-- The number of 16 bytes, little-endian. -/
def blockNat (b : List Nat) : Nat := (b.zipIdx).foldl (fun a e => a + e.1 * 2 ^ (8 * e.2)) 0

/-- Multiplication of the tweak by the primitive element. -/
def tweakNext (t : Nat) : Nat := if t < 2 ^ 127 then 2 * t else (2 * t - 2 ^ 128) ^^^ 0x87

/-- A line through XTS under a 512-bit slot (key 1 low, key 2 high) with tweak PA[51:6]. -/
def xts (enc : Bool) (key : BitVec 512) (line : Nat) (d : Line) : Line :=
  let bytes : Nat → List Nat := fun o => (List.range 32).map fun i => (lineByte key (o + i)).toNat
  let k1 := roundKeys (bytes 0)
  let t0 := blockNat (aesEnc (roundKeys (bytes 32)) (block16 line))
  let f := if enc then aesEnc k1 else aesDec k1
  BitVec.ofNat 512 ((List.range 4).foldl (fun (a : Nat × Nat) j =>
    let x := (d.toNat >>> (128 * j)) % 2 ^ 128
    (a.1 + (blockNat (f (block16 (x ^^^ a.2))) ^^^ a.2) * 2 ^ (128 * j), tweakNext a.2)) (0, t0)).1

/-- A doubleword as 8 bytes, most significant first. -/
def beBytes8 (n : Nat) : List Nat := (List.range 8).map fun i => n / 2 ^ (56 - 8 * i) % 256

/-- One step of SP 800-38F W on the check word and a block: step number `t`. -/
def kwFold (rk : List (List Nat)) (a r : List Nat) (t : Nat) : List Nat × List Nat :=
  let b := aesEnc rk (a ++ r)
  (xorBytes (b.take 8) (beBytes8 t), b.drop 8)

/-- One step back. -/
def kwUnfold (rk : List (List Nat)) (a r : List Nat) (t : Nat) : List Nat × List Nat :=
  let b := aesDec rk (xorBytes a (beBytes8 t) ++ r)
  (b.take 8, b.drop 8)

/-- The check word of KW. -/
def kwCheck : List Nat := List.replicate 8 0xA6

/-- SP 800-38F AES key wrap (KW) of 64 bytes: 72 bytes (R482). -/
def kwWrap (key pt : List Byte) : List Byte :=
  let rk := roundKeys (key.map BitVec.toNat)
  let p := pt.map BitVec.toNat
  let r0 := (List.range 8).map fun i => (p.drop (8 * i)).take 8
  let out := (List.range 48).foldl (fun (x : List Nat × List (List Nat)) t =>
    let y := kwFold rk x.1 (x.2.getD (t % 8) []) (t + 1)
    (y.1, x.2.set (t % 8) y.2)) (kwCheck, r0)
  (out.1 ++ out.2.flatten).map (BitVec.ofNat 8)

/-- KW unwrap of 72 bytes: the 64 bytes, or none when the check word fails. -/
def kwUnwrap (key ct : List Byte) : Option (List Byte) :=
  let rk := roundKeys (key.map BitVec.toNat)
  let c := ct.map BitVec.toNat
  let r0 := (List.range 8).map fun i => (c.drop (8 + 8 * i)).take 8
  let out := (List.range 48).foldl (fun (x : List Nat × List (List Nat)) i =>
    let t := 47 - i
    let y := kwUnfold rk x.1 (x.2.getD (t % 8) []) (t + 1)
    (y.1, x.2.set (t % 8) y.2)) (c.take 8, r0)
  if out.1 = kwCheck then some (out.2.flatten.map (BitVec.ofNat 8)) else none

/-! ## SHA-384 (FIPS 180-4) and HMAC -/

/-- The 80 round constants, number `i` at bits [64i+63:64i]. -/
def shaK : Nat :=
  0x6c44198c4a4758175fcb6fab3ad6faec597f299cfc657e2a4cc5d4becb3e42b6431d67c49c100d4c3c9ebe0a15c9bebc32caab7b40c7249328db77f523047d841b710b35131c471b113f9804bef90dae0a637dc5a2c898a606f067aa72176fbaf57d4f7fee6ed178eada7dd6cde0eb1ed186b8c721c0c207ca273eceea26619cc67178f2e372532bbef9a3f7b2c67915a4506cebde82bde990befffa23631e288cc702081a6439ec84c87814a1f0ab7278a5636f43172f60748f82ee5defb2fc682e6ff3d6b2b8a35b9cca4f7763e3734ed8aa4ae3418acb391c0cb3c5c95a6334b0bcb5e19b48a82748774cdf8eeb991e376c085141ab5319a4c116b8d2d0c8106aa07032bbd1b8f40e35855771202ad69906245565a910d192e819d6ef5218c76c51a30654be30c24b8b70d0f89791a81a664bbc423001a2bfe8a14cf1036492722c851482353b81c2c92e47edaee6766a0abb3c77b2a8650a73548baf63de53380d139d95b3df4d2c6dfc5ac42aed2e1b21385c26c92627b70a8546d22ffc142929670a0e6e7006ca6351e003826fd5a79147930aa725c6e00bf33da88fc2bf597fc7beef0ee4b00327c898fb213fa831c66d2db43210983e5152ee66dfab76f988da831153b55cb0a9dcbd41fbd44a7484aa6ea6e4832de92c6f592b0275240ca1cc77ac9c650fc19dc68b8cd5b5efbe4786384f25e3e49b69c19ef14ad2c19bf174cf6926949bdc06a725c7123580deb1fe3b1696b172be5d74f27b896f550c7dc3d5ffb4e2243185be4ee4b28c12835b0145706fbed807aa98a3030242ab1c5ed5da6d8118923f82a4af194f9b59f111f1b605d0193956c25bf348b538e9b5dba58189dbbcb5c0fbcfec4d3b2f7137449123ef65cd428a2f98d728ae22

/-- The initial hash value of SHA-384. -/
def shaInit : List W64 := [0xcbbb9d5dc1059ed8, 0x629a292a367cd507, 0x9159015a3070dd17, 0x152fecd8f70e5939, 0x67332667ffc00b31, 0x8eb44a8768581511, 0xdb0c2e0d64f98fa7, 0x47b5481dbefa4fa4]

/-- One round on the eight working variables. -/
def shaRound (v : List W64) (k w : W64) : List W64 :=
  match v with
  | [a, b, c, d, e, f, g, h] =>
    let t1 := h + (e.rotateRight 14 ^^^ e.rotateRight 18 ^^^ e.rotateRight 41) + ((e &&& f) ^^^ (~~~e &&& g)) + k + w
    let t2 := (a.rotateRight 28 ^^^ a.rotateRight 34 ^^^ a.rotateRight 39) + ((a &&& b) ^^^ (a &&& c) ^^^ (b &&& c))
    [t1 + t2, a, b, c, d + t1, e, f, g]
  | v => v

/-- The next message-schedule word from the sixteen before it, oldest first. -/
def shaNext (w : List W64) : W64 :=
  let s0 := fun (x : W64) => x.rotateRight 1 ^^^ x.rotateRight 8 ^^^ (x >>> 7)
  let s1 := fun (x : W64) => x.rotateRight 19 ^^^ x.rotateRight 61 ^^^ (x >>> 6)
  s1 (w.getD 14 0) + w.getD 9 0 + s0 (w.getD 1 0) + w.getD 0 0

/-- The compression of one block of sixteen words. -/
def shaBlock (h : List W64) (m : List W64) : List W64 :=
  let r := (List.range 80).foldl (fun (a : List W64 × List W64) i =>
    (shaRound a.1 (w64 ((shaK >>> (64 * i)) % 2 ^ 64)) (a.2.getD 0 0), a.2.drop 1 ++ [shaNext a.2])) (h, m)
  List.zipWith (· + ·) h r.1

/-- Big-endian words of bytes. -/
def beWords (bs : List Byte) : List W64 :=
  (List.range (bs.length / 8)).map fun i => ((bs.drop (8 * i)).take 8).foldl (fun a b => a <<< 8 ||| b.setWidth 64) 0

/-- SHA-384 of bytes, 48 bytes. -/
def sha384 (bs : List Byte) : List Byte :=
  let pad := (111 + 128 - bs.length % 128) % 128
  let m := beWords (bs ++ [0x80#8] ++ List.replicate pad (0 : Byte) ++
    ((List.range 16).map fun i => (BitVec.ofNat 8 ((8 * bs.length) >>> (8 * (15 - i))) : Byte)))
  let h := (List.range (m.length / 16)).foldl (fun h i => shaBlock h ((m.drop (16 * i)).take 16)) shaInit
  (h.take 6).flatMap fun w => (List.range 8).map fun i => w.extractLsb' (8 * (7 - i)) 8

/-- HMAC-SHA-384. -/
def hmac384 (key msg : List Byte) : List Byte :=
  let k := if 128 < key.length then sha384 key else key
  let k := k ++ List.replicate (128 - k.length) 0
  sha384 (k.map (· ^^^ 0x5c#8) ++ sha384 (k.map (· ^^^ 0x36#8) ++ msg))

/-! ## ECDSA P-384 (FIPS 186) -/

/-- The field prime, the group order, and the curve constants of P-384. -/
def p384 : Nat := 2 ^ 384 - 2 ^ 128 - 2 ^ 96 + 2 ^ 32 - 1
def n384 : Nat :=
  0xffffffffffffffffffffffffffffffffffffffffffffffffc7634d81f4372ddf581a0db248b0a77aecec196accc52973
def b384 : Nat :=
  0xb3312fa7e23ee7e4988e056be3f82d19181d9c6efe8141120314088f5013875ac656398d8a2ed19d2a85c8edd3ec2aef
def g384 : Nat × Nat :=
  (0xaa87ca22be8b05378eb1c71ef320ad746e1d3b628ba79b9859f741e082542a385502f25dbf55296c3a545e3872760ab7,
   0x3617de4a96262c6f5d9e98bf9292dc29f8f41dbd289a147ce9da3113b5f0b8c00a60b1ce1d7e819d7a431d7c90ea0e5f)

/-- Modular power by the bits of the exponent. -/
def powMod (m b : Nat) (e : Nat) : Nat :=
  ((List.range 384).foldl (fun (a : Nat × Nat) i =>
    (if e.testBit i then a.1 * a.2 % m else a.1, a.2 * a.2 % m)) (1 % m, b % m)).1

/-- The inverse modulo a prime. -/
def invMod (m a : Nat) : Nat := powMod m a (m - 2)

/-- Addition of curve points, `none` the point at infinity. -/
def ecAdd : Option (Nat × Nat) → Option (Nat × Nat) → Option (Nat × Nat)
  | none, q => q
  | p, none => p
  | some (x1, y1), some (x2, y2) =>
    let p := p384
    if x1 = x2 ∧ (y1 + y2) % p = 0 then none
    else
      let l := if x1 = x2 then (3 * x1 * x1 + (p - 3)) * invMod p (2 * y1) % p
        else (y2 + p - y1) * invMod p (x2 + p - x1) % p
      let x := (l * l + 2 * p - x1 - x2) % p
      some (x, (l * (x1 + p - x) + p - y1) % p)

/-- A scalar multiple of a point. -/
def ecMul (k : Nat) (q : Option (Nat × Nat)) : Option (Nat × Nat) :=
  ((List.range 384).foldl (fun (a : Option (Nat × Nat) × Option (Nat × Nat)) i =>
    (if k.testBit i then ecAdd a.1 a.2 else a.1, ecAdd a.2 a.2)) (none, q)).1

/-- The number that bytes spell, big-endian. -/
def beNat (bs : List Byte) : Nat := bs.foldl (fun a b => a * 256 + b.toNat) 0

/-- Whether (r, s) is a signature of a digest under a public key on the curve. -/
def ecdsaOk (pub : Nat × Nat) (digest : Nat) (r s : Nat) : Bool :=
  let p := p384
  let n := n384
  decide (0 < r ∧ r < n ∧ 0 < s ∧ s < n ∧ pub.1 < p ∧ pub.2 < p) &&
    (pub.2 * pub.2 % p == (pub.1 * pub.1 * pub.1 + (p - 3) * pub.1 + b384) % p) &&
    (let w := invMod n s
     match ecAdd (ecMul (digest * w % n) (some g384)) (ecMul (r * w % n) (some pub)) with
     | none => false
     | some q => q.1 % n == r)

end Sys2Proof.Machine
end

