-- ==== Sys2Proof/Machine/Mem.lean ====
section
/-! DEFINITION. The address map, the homes, DRAM with its encryption, and the cache arrays (01.4, 05.1 to 05.5, 07.2, 07.9). -/

namespace Sys2Proof.Machine

/-! ## The system address map (01.4, 07.2, 13.3) -/

/-- The code of a map register in a SamUpd broadcast. -/
def samCode (r : RegName) (i : Nat) : Nat :=
  i + 64 * (match r with | .SAM_RADDR => 0 | .SAM_RCFG => 1 | .SAM_ABASE => 2 | _ => 3)

/-- A map register as the network interface of `stop` holds it: the SV0 copy, less the broadcasts that have not yet reached
it (R39, R41). -/
def samSeen (s : State) (stop : Nat) (r : RegName) (i : Nat) : W64 :=
  match s.fab.bcasts.find? (fun b => decide (b.kind = .samUpd) && b.arg == samCode r i && b.missing.contains stop) with
  | some b => b.a
  | none => s.reg r 0 i

/-- CRS base. -/
def crsBase : Nat := 0xFF00000000000

/-- The channels a region register names, ascending. -/
def chanList (cfg : W64) : List Nat := (List.range 16).filter fun n => bit cfg n

/-- The granule in bytes (Table 07-5); codes 6 and 7 are never in force (R279). -/
def granule (cfg : W64) : Nat :=
  match fld cfg 58 56 with
  | 0 => 256
  | 1 => 512
  | 2 => 1024
  | 3 => 4096
  | 4 => 65536
  | _ => 2097152

/-- R278: the channel and channel-local address of `a` bytes into a region. -/
def regionDecode (base : Nat) (cfg : W64) (pa : Nat) : Nat × Nat :=
  let cs := chanList cfg
  let n := max cs.length 1
  let G := granule cfg
  let a := pa - base * 2 ^ 30
  let q := a / G / n
  let h := (q ^^^ (q >>> 8) ^^^ (q >>> 16) ^^^ (q >>> 24)) % 256
  let p := if bit cfg 62 then (a / G % n + h) % n else a / G % n
  (cs.getD p 0, fld cfg 47 32 * 2 ^ 30 + q * G + a % G)

/-- Where an address goes (R37): a register offset of the CRS, aperture `i`, channel and local address of region `i`, or
nowhere. -/
inductive Dest where
  | reg (off : Nat)
  | aperture (i : Nat)
  | mem (region ch loc : Nat)
  | nowhere
  deriving DecidableEq, Repr

/-- Whether region `i` holds the address in the map a stop sees. -/
def inRegionAt (s : State) (stop pa i : Nat) : Bool :=
  let v := samSeen s stop .SAM_RADDR i
  bit v 63 && decide (fld v 21 0 ≤ pa / 2 ^ 30) && decide (pa / 2 ^ 30 < fld v 53 32)

/-- Whether aperture `i` holds the address. -/
def inApertureAt (s : State) (stop pa i : Nat) : Bool :=
  let v := samSeen s stop .SAM_ABASE i
  bit v 63 && decide (fld v 51 20 ≤ pa / 2 ^ 20) && decide (pa / 2 ^ 20 < fld (samSeen s stop .SAM_ACFG i) 51 20)

/-- R37: the decode of a physical address by the network interface of a stop. -/
def decodeAddr (s : State) (stop pa : Nat) : Dest :=
  if crsBase ≤ pa then (if pa < crsBase + 2 ^ 32 then .reg (pa - crsBase) else .nowhere)
  else match (List.range 32).find? (inApertureAt s stop pa) with
    | some i => .aperture i
    | none =>
      match (List.range 8).find? (inRegionAt s stop pa) with
      | some i =>
        let d := regionDecode (fld (samSeen s stop .SAM_RADDR i) 21 0) (samSeen s stop .SAM_RCFG i) pa
        .mem i d.1 d.2
      | none => .nowhere

/-- Whether an address lies in an interleave region. -/
def inRegion (s : State) (stop pa : Nat) : Bool :=
  match decodeAddr s stop pa with
  | .mem _ _ _ => true
  | _ => false

/-- The kind of aperture `i` (Table 13-8). -/
def apertureKind (s : State) (stop i : Nat) : Nat := fld (samSeen s stop .SAM_ACFG i) 1 0

/-- R694: whether a physical address is device memory whatever the page tables say. -/
def isDevicePA (s : State) (stop pa : Nat) : Bool :=
  match decodeAddr s stop pa with
  | .mem _ _ _ => false
  | .aperture i => decide (apertureKind s stop i = 0 ∨ apertureKind s stop i = 3)
  | _ => true

/-! ## Home slices (05.4) -/

/-- The quadrant of a stop position (Table 01-2). -/
def quadrantOf (stop : Nat) : Nat :=
  let r := stop / 16
  let c := stop % 16
  if c ≤ 5 then (if r < 4 then 0 else 2)
  else if 7 ≤ c then (if r < 4 then 1 else 3)
  else if r ≤ 1 then 0 else if r ≤ 3 then 1 else if r ≤ 5 then 3 else 2

/-- The tiles of a quadrant, ascending. -/
def quadTiles (q : Nat) : List Nat := (List.range 72).filter fun t => quadrantOf (tileStop t) == q

/-- The quadrant of a memory channel (Table 01-2). -/
def chanQuad (n : Nat) : Nat := if n < 4 then 0 else if n < 8 then 2 else if n < 12 then 1 else 3

/-- R185: x and y of the home hash for the line number L = PA[51:6]. -/
def hashX (L : Nat) : Nat := (L ^^^ (L >>> 8) ^^^ (L >>> 16) ^^^ (L >>> 24) ^^^ (L >>> 32) ^^^ (L >>> 40)) % 8
def hashY (L : Nat) : Nat := L % 9

/-- The first tile of a list, from position `j` on and wrapping, that was in service at the last reset (R187). -/
def nextInService (sv : BitVec 72) (ts : List Nat) (j : Nat) : Option Nat :=
  (ts.drop j ++ ts.take j).find? fun t => sv.getLsbD t

/-- R185 to R187: the tile whose slice is the home of a line, none when no tile was in service at the last reset. -/
def homeTile (s : State) (stop line : Nat) : Option Nat :=
  let h := 9 * hashX line + hashY line
  let all := nextInService s.homes.inService (List.range 72) h
  if (s.reg .CCH_MODE).getLsbD 0 then
    match decodeAddr s stop (line * 64) with
    | .mem i _ _ =>
      let cs := chanList (samSeen s stop .SAM_RCFG i)
      let q := chanQuad (cs.getD 0 0)
      if cs.all (fun c => chanQuad c == q) then
        match nextInService s.homes.inService (quadTiles q) (9 * (hashX line % 2) + hashY line) with
        | some t => some t
        | none => all
      else all
    | _ => all
  else all

/-- The memory stop and local line number of a line, as stop `stop` decodes it. -/
def memOf (s : State) (stop line : Nat) : Option (Nat × Nat) :=
  match decodeAddr s stop (line * 64) with
  | .mem _ ch loc => some (ch, loc / 64)
  | _ => none

/-- Whether a line lies in a mirrored region (R305). -/
def isMirrored (s : State) (stop line : Nat) : Bool :=
  match decodeAddr s stop (line * 64) with
  | .mem i _ _ => bit (samSeen s stop .SAM_RCFG i) 63
  | _ => false

/-- The channel that serves a line of channel `ch`: the partner when the primary of a mirrored pair is out of service
(R309). -/
def servingChan (s : State) (mirrored : Bool) (ch : Nat) : Nat :=
  if mirrored && !(s.reg .AVAIL_MEM).getLsbD ch then ch + 1 else ch

/-! ## DRAM and encryption (07.6, 07.9) -/

/-- What an unlisted DRAM byte reads as (log entry 4). -/
def dramDefault : Byte := 0

/-- The canonical form of memory: addresses strictly rising, no entry that reads as an unlisted address does. -/
def Memory.wf (m : List Host.Cell) : Bool := NMap.wf dramDefault m

/-- One byte of DRAM. -/
def readCell (m : List Host.Cell) (a : Nat) : Byte := NMap.get dramDefault m a

/-- Writes one byte of DRAM. -/
def writeCell (m : List Host.Cell) (a : Nat) (b : Byte) : List Host.Cell := NMap.set dramDefault m a b

/-- Bytes `a`, `a + 1`, … of DRAM. -/
def readCells (m : List Host.Cell) (a n : Nat) : List Byte := (List.range n).map fun i => readCell m (a + i)

/-- Writes consecutive bytes. -/
def writeCells (m : List Host.Cell) (a : Nat) : List Byte → List Host.Cell
  | [] => m
  | b :: bs => writeCells (writeCell m a b) (a + 1) bs

/-- The number of a line of DRAM: channel · 2^42 + local line. -/
def cellLine (ch loc : Nat) : Nat := ch * 2 ^ 42 + loc

/-- The plaintext a line of DRAM remembers. -/
def dramLine (s : State) (l : Nat) : Line := BitVec.ofNat 512 (leNat (readCells s.dram (l * 64) 64))

/-- The bytes of a line, ascending. -/
def lineBytes (d : Line) : List Byte := (List.range 64).map (lineByte d)

/-- The bytes as they stand in the DRAM devices: ciphertext when the line was written under a key. -/
def rawLine (s : State) (l : Nat) : Line :=
  let m := NMap.get LMeta.plain s.lmeta l
  if m.enc then xts true m.key m.tweak (dramLine s l) else dramLine s l

/-- Slot `k` of memory stop `ch` (R312, R315). -/
def keySlot (s : State) (ch k : Nat) : KeySlot :=
  match NMap.find? s.keys (ch * 4096 + k) with
  | some v => v
  | none => if k ≠ 0 ∧ (s.mc ch).keysErased then .erased else .empty

/-- R310 to R313: a line read under a key ID: its data and whether it is poisoned, and whether that is for want of a key
(counted in KEY_STATUS). -/
def dramRead (s : State) (ch loc pal key : Nat) : Line × Bool × Bool :=
  let l := cellLine ch loc
  let m := NMap.get LMeta.plain s.lmeta l
  if key = 0 then (rawLine s l, m.poison, false)
  else match keySlot s ch key with
    | .loaded k =>
      if m.enc && m.key == k && m.tweak == pal then (dramLine s l, m.poison, false)
      else (xts false k pal (rawLine s l), m.poison, false)
    | _ => (rawLine s l, true, true)

/-- R312: one more read poisoned, or write dropped, for want of a key. -/
def countKey (dropped : Bool) (s : State) : State :=
  if dropped then s.bumpReg .KEY_STATUS 63 48 else s.bumpReg .KEY_STATUS 47 32

/-- R310 to R312: a line written under a key ID; a write under an empty or erased slot is discarded and counted. -/
def dramWrite (ch loc pal key : Nat) (d : Line) (poison : Bool) (s : State) : State :=
  let l := cellLine ch loc
  let put := fun (m : LMeta) =>
    { s with dram := writeCells s.dram (l * 64) (lineBytes d), lmeta := NMap.set LMeta.plain s.lmeta l m }
  if key = 0 then put { key := 0, enc := false, tweak := 0, poison }
  else match keySlot s ch key with
    | .loaded k => put { key := k, enc := true, tweak := pal, poison }
    | _ => countKey true s

/-! ## Cache arrays (05.1, 05.2) -/

/-- The number of a cache in `State.lines`. -/
def cacheNo : CacheId → Nat
  | .l1i n => n
  | .l1d n => 144 + n
  | .l2 n => 288 + n
  | .l3 t => 432 + t
  | .cxI k => 504 + k
  | .cxD k => 508 + k

/-- Ways of a cache (Table 05-1, R436). -/
def cacheWays : CacheId → Nat
  | .l1i _ | .l1d _ => 8
  | .l2 _ => 16
  | .l3 _ => 12
  | .cxI _ | .cxD _ => 4

/-- The set a line falls into (Table 05-1). -/
def cacheSet : CacheId → Nat → Nat
  | .l1i _, l | .l1d _, l => l % 128
  | .l2 _, l => l % 1024
  | .l3 _, l => (l % 4096) ^^^ (l / 4096 % 4096)
  | .cxI _, l | .cxD _, l => l % 64

/-- The key of a way in `State.lines`. -/
def wayKey (c : CacheId) (set way : Nat) : Nat := cacheNo c * 65536 + set * 16 + way

/-- The disabled ways of a cache (Tables 05-13, 05-14). -/
def disabledWays (s : State) : CacheId → Nat
  | .l1i n => fld (s.reg .TC_WAYDIS0 (n / 2)) (16 * (n % 2) + 7) (16 * (n % 2))
  | .l1d n => fld (s.reg .TC_WAYDIS0 (n / 2)) (16 * (n % 2) + 15) (16 * (n % 2) + 8)
  | .l2 n => fld (s.reg .TC_WAYDIS1 (n / 2)) (16 * (n % 2) + 15) (16 * (n % 2))
  | .l3 t => fld (s.reg .TC_WAYDIS1 t) 43 32
  | _ => 0

/-- The ways of a set that may be filled. -/
def liveWays (s : State) (c : CacheId) : List Nat :=
  (List.range (cacheWays c)).filter fun w => !(disabledWays s c).testBit w

/-- The way that holds a line, under whatever key, and the line. -/
def findLine (s : State) (c : CacheId) (line : Nat) : Option (Nat × CLine) :=
  (List.range (cacheWays c)).findSome? fun w =>
    match NMap.find? s.lines (wayKey c (cacheSet c line) w) with
    | some l => if l.line = line then some (w, l) else none
    | none => none

/-- The line a cache holds under a key ID (R176). -/
def hitLine (s : State) (c : CacheId) (line key : Nat) : Option CLine :=
  match findLine s c line with
  | some (_, l) => if l.key = key then some l else none
  | none => none

/-- Rewrites a line a cache holds. -/
def putLine (c : CacheId) (way : Nat) (l : CLine) (s : State) : State :=
  { s with lines := NMap.put s.lines (wayKey c (cacheSet c l.line) way) l }

/-- Applies `f` to a line, when the cache holds it. -/
def modLine (c : CacheId) (line : Nat) (f : CLine → CLine) (s : State) : State :=
  match findLine s c line with
  | some (w, l) => putLine c w (f l) s
  | none => s

/-- Removes a line from a cache. -/
def dropLine (c : CacheId) (line : Nat) (s : State) : State :=
  match findLine s c line with
  | some (w, l) => { s with lines := NMap.erase s.lines (wayKey c (cacheSet c l.line) w) }
  | none => s

/-- The ages of a set after the victim search, and the victim (05.2): the lowest invalid way, else the lowest way that
reaches age 3 first, every candidate having aged equally. -/
def chooseVictim (s : State) (c : CacheId) (set : Nat) : Option (Nat × State) :=
  let live := liveWays s c
  let at_ := fun w => NMap.find? s.lines (wayKey c set w)
  match live.find? (fun w => (at_ w).isNone) with
  | some w => some (w, s)
  | none =>
    let age := fun w => match at_ w with | some l => l.age | none => 0
    let m := live.foldl (fun a w => max a (age w)) 0
    match live.find? (fun w => age w == m) with
    | none => none
    | some v =>
      let older := fun (ls : NMap CLine) w =>
        match at_ w with
        | some l => NMap.put ls (wayKey c set w) { l with age := l.age + (3 - m) }
        | none => ls
      some (v, { s with lines := live.foldl older s.lines })

/-- A hit sets the age to 0 and ends the streaming state (05.2, R179). -/
def touchLine (c : CacheId) (line : Nat) (s : State) : State :=
  modLine c line (fun l => { l with age := 0, strm := false }) s

/-- A fill: the victim it displaces, if any, and the state with the new line at age 3 when streaming, else 1 (R178). No way
takes the line when every way of the set is disabled. -/
def fillLine (c : CacheId) (l : CLine) (s : State) : Option CLine × State :=
  match findLine s c l.line with
  | some (w, _) => (none, putLine c w { l with age := if l.strm then 3 else 1 } s)
  | none =>
    match chooseVictim s c (cacheSet c l.line) with
    | none => (none, s)
    | some (w, s) =>
      (NMap.find? s.lines (wayKey c (cacheSet c l.line) w),
        putLine c w { l with age := if l.strm then 3 else 1 } s)

/-! ## The directory (R175) -/

/-- The key of a directory way of slice `t`. -/
def dirKey (t set way : Nat) : Nat := (t * 4096 + set) * 16 + way

/-- The entry of a line in the directory of slice `t`. -/
def findDir (s : State) (t line : Nat) : Option (Nat × DirEnt) :=
  let set := cacheSet (.l3 t) line
  (List.range 16).findSome? fun w =>
    match NMap.find? s.dir (dirKey t set w) with
    | some e => if e.line = line then some (w, e) else none
    | none => none

/-- The cores a directory entry lists. -/
def holders (e : DirEnt) : List Nat := (List.range 144).filter fun n => e.pres.getLsbD n

/-- Writes or removes the entry of a line; an entry that no L2 holds is removed (state I). -/
def setDir (t line way : Nat) (e : Option DirEnt) (s : State) : State :=
  let k := dirKey t (cacheSet (.l3 t) line) way
  match e with
  | some e => if e.pres = 0 then { s with dir := NMap.erase s.dir k } else { s with dir := NMap.put s.dir k e }
  | none => { s with dir := NMap.erase s.dir k }

/-! ## What one core's caches hold -/

/-- The L2 line of core `n` with the data of a dirty L1D copy merged (R190). -/
def mergedL2 (s : State) (n line : Nat) : Option CLine :=
  match findLine s (.l2 n) line with
  | none => none
  | some (_, l) =>
    match findLine s (.l1d n) line with
    | some (_, d) => some (if d.st = .M then
        { l with data := d.data, poison := d.poison, st := if l.st = .E then .M else l.st } else l)
    | none => some l

/-- Merges a dirty L1D copy into the L2 line; the L1D copy stays, clean (R190). -/
def mergeL1 (n line : Nat) (s : State) : State :=
  match mergedL2 s n line with
  | none => s
  | some l => modLine (.l1d n) line (fun d => { d with st := .S }) (modLine (.l2 n) line (fun _ => l) s)

/-- Clears the reservation of core `n` on a line (R69). -/
def clearResv (n line : Nat) (s : State) : State :=
  match (s.core n).resv with
  | some (l, _) => if l = line then s.modCore n fun c => { c with resv := none } else s
  | none => s

/-- A line leaves every cache of core `n` (R173). -/
def dropCore (n line : Nat) (s : State) : State :=
  clearResv n line (dropLine (.l2 n) line (dropLine (.l1d n) line (dropLine (.l1i n) line s)))

/-! ## The latest value of a line (R189, R222, R223) -/

/-- The write entry of a memory stop that holds a line, the latest. -/
def writeEntry (s : State) (ch line : Nat) : Option MemEnt :=
  ((s.mc ch).ents.filter fun e => e.write && e.line == line && !e.issued).getLast?

/-- The cell number of a line of memory behind a kind 1 or kind 2 aperture (Table 13-8): its physical line, from 2^50 on. -/
def cxlCell (s : State) (line : Nat) : Option Nat :=
  match decodeAddr s 0x02 (line * 64) with
  | .aperture i => if apertureKind s 0x02 i = 1 ∨ apertureKind s 0x02 i = 2 then some (2 ^ 50 + line) else none
  | _ => none

/-- A line as memory stop and DRAM, or a memory aperture, give it under a key ID, after the writes of it under way. -/
def memValue (s : State) (line key : Nat) : Line × Bool :=
  match memOf s 0x02 line with
  | none =>
    match cxlCell s line with
    | some l => (dramLine s l, (NMap.get LMeta.plain s.lmeta l).poison)
    | none => (0, true)
  | some (ch, loc) =>
    let c := servingChan s (isMirrored s 0x02 line) ch
    match (s.fab.net.filter fun p => p.op == .MemWr && p.addr == line).getLast?, writeEntry s c line with
    | some p, _ => (p.data, p.poison)
    | none, some e => (e.data, e.poison)
    | none, none => let r := dramRead s c loc line key; (r.1, r.2.1)

/-- A line cached under key `k`, as a read under another key sees it once it is written back (R176). -/
def recode (s : State) (line k key : Nat) (d : Line) (poison : Bool) : Line × Bool :=
  match memOf s 0x02 line with
  | none => (d, poison)
  | some (ch, loc) =>
    let r := dramRead (dramWrite ch loc line k d poison s) ch loc line key
    (r.1, r.2.1)

/-- Dirty data of a line on its way between L2s or at its home: a grant in M, snoop data, or what a transaction holds. -/
def onTheWay (s : State) (line : Nat) : Option CLine :=
  match s.fab.net.find? (fun p => p.addr == line && (p.op == .DatM || (p.op == .SnpDat && p.flag))) with
  | some p => some ⟨line, p.key, .M, p.data, p.poison, 0, false⟩
  | none =>
    match s.homes.txns.find? (fun x => x.req.addr == line && x.dirty && x.dat.isSome) with
    | some x => some ⟨line, x.req.key, .M, x.dat.getD 0, x.poison, 0, false⟩
    | none => none

/-- The cached copy that holds the latest value of a line: the owner's L2 with its L1D (dirty while a CmpM is on its way to it),
data on its way, a writeback buffer, or the L3's. -/
def cachedValue (s : State) (line : Nat) : Option CLine :=
  match homeTile s 0x02 line with
  | none => none
  | some t =>
    let owner := match findDir s t line with
      | some (_, e) => if e.st = DirState.S then none else mergedL2 s e.owner line
      | none => none
    let granted := s.fab.net.any fun p => p.addr == line && p.op == .CmpM
    match owner with
    | some l => some (if granted then { l with st := .M } else l)
    | none =>
    match onTheWay s line with
    | some l => some l
    | none =>
      match s.homes.wbs.find? (fun (w : WbEnt) => w.line == line) with
      | some w => some ⟨w.line, w.key, .M, w.data, w.poison, 0, false⟩
      | none => (findLine s (.l3 t) line).map Prod.snd

/-- The latest globally visible value of a line under a key ID, and whether it is poisoned. -/
def peekLine (s : State) (line key : Nat) : Line × Bool :=
  match cachedValue s line with
  | some l => if l.key = key then (l.data, l.poison) else recode s line l.key key l.data l.poison
  | none => memValue s line key

/-- `size` bytes at a physical address within one line, as a number, and whether the line is poisoned. -/
def peek (s : State) (pa size key : Nat) : Nat × Bool :=
  let r := peekLine s (pa / 64) key
  (lineNat r.1 (pa % 64) size, r.2)

/-- `n` bytes from a physical address on, and whether any line they lie in is poisoned. -/
def peekBytes (s : State) (pa n key : Nat) : List Byte × Bool :=
  let first := pa / 64
  let count := (pa + n + 63) / 64 - first
  let ls := (List.range count).map fun i => peekLine s (first + i) key
  let all := ls.flatMap fun r => lineBytes r.1
  ((all.drop (pa % 64)).take n, ls.any Prod.snd)

/-! ## Ownership shadow (R219, R221) -/

/-- The counter index of a line. -/
def shadowIndex (line : Nat) : Nat := (line ^^^ (line >>> 20) ^^^ ((line >>> 40) % 64)) % 2 ^ 20

/-- The shadow counter of a line at a memory stop. -/
def shadowAt (s : State) (ch line : Nat) : Nat := NMap.get 0 s.shadow (ch * 2 ^ 20 + shadowIndex line)

/-- R219: an increment, which stays at 15. -/
def shadowInc (ch line : Nat) (s : State) : State :=
  { s with shadow := NMap.set 0 s.shadow (ch * 2 ^ 20 + shadowIndex line) (min 15 (shadowAt s ch line + 1)) }

/-- R221: a decrement, which leaves a counter of 15 as it is. -/
def shadowDec (ch line : Nat) (s : State) : State :=
  let v := shadowAt s ch line
  { s with shadow := NMap.set 0 s.shadow (ch * 2 ^ 20 + shadowIndex line) (if v = 15 then 15 else v - 1) }

/-- R218: a line is on-die owned: its directory state is EM or O, or its L3 copy is dirty. -/
def onDieOwned (s : State) (t line : Nat) : Bool :=
  (match findDir s t line with | some (_, e) => decide (e.st ≠ .S) | none => false) ||
    (match findLine s (.l3 t) line with | some (_, l) => decide (l.st = .M) | none => false)

/-- R218: the message a home owes the memory stop when a line's ownership has changed from `s` to `t`. -/
def shadowMsg (slice line : Nat) (before after : State) : State :=
  match memOf after 0x02 line with
  | none => after
  | some (ch, _) =>
    let p := fun op => mkPacket op (tileStop slice) (mcStop ch) 0 line 0 (.home slice) (.mc ch)
    match onDieOwned before slice line, onDieOwned after slice line with
    | false, true => send (p .ShInc) after
    | true, false => send (p .ShDec) after
    | _, _ => after

/-! ## A write by an agent that keeps no copy (R189, WrLine and WrPtl) -/

/-- A line reaches one channel: it replaces the data of a write entry of the line, or goes to DRAM (R285). -/
def memStoreAt (c loc line key : Nat) (d : Line) (poison : Bool) (s : State) : State :=
  match writeEntry s c line with
  | some e => s.modMc c fun m => { m with ents := m.ents.map fun x => if x.id = e.id then { x with data := d, key, poison } else x }
  | none => dramWrite c loc line key d poison s

/-- A write of a line reaches memory, and the partner copy of a mirrored line (R285, R306). -/
def memStore (line key : Nat) (d : Line) (poison : Bool) (s : State) : State :=
  match memOf s 0x02 line with
  | none =>
    match cxlCell s line with
    | some l => { s with dram := writeCells s.dram (l * 64) (lineBytes d),
                         lmeta := NMap.set LMeta.plain s.lmeta l ⟨0, false, 0, poison⟩ }
    | none => s
  | some (ch, loc) =>
    let mir := isMirrored s 0x02 line
    let s := memStoreAt (servingChan s mir ch) loc line key d poison s
    if mir && (s.reg .AVAIL_MEM).getLsbD ch && (s.reg .AVAIL_MEM).getLsbD (ch + 1) then memStoreAt (ch + 1) loc line key d poison s else s

/-- Reservations on a written line are cleared, but for that of the writer (R69). -/
def breakResv (w : Unit) (line : Nat) (s : State) : State :=
  { s with cores := s.cores.map fun e =>
      if decide (w ≠ .core e.1) && e.2.resv.any (fun r => r.1 == line) then (e.1, { e.2 with resv := none }) else e,
           pairs := s.pairs.map fun e =>
      if decide (w ≠ .pair e.1) && decide (e.2.resv = some line) then (e.1, { e.2 with resv := none }) else e }

end Sys2Proof.Machine
end

