-- ==== Sys2Proof/Machine/Coherence.lean ====
section
/-! DEFINITION. The coherence protocol: order and arrival of packets, dirty budgets, the home slice's transactions, the answers of
an L2, and accesses taken whole (05.4 to 05.10, 06.2, 06.7). -/

namespace Sys2Proof.Machine

/-! ## Order and arrival (R226, R240, R253) -/

/-- The channel of a packet: request, snoop, response, data of a data plane; broadcast, request, response of the control plane
(Tables 06-1, 06-3, 06-5). -/
def opClass : Op → Nat
  | .RdS | .RdO | .Upg | .EvC | .RdOnce | .WrLine | .WrPtl | .RdDev | .MemRd | .MemWr | .DcOp => 0
  | .SnpS | .SnpIF | .SnpI | .SnpOnce | .ShInc | .ShDec => 1
  | .Cmp | .CmpM | .WBP | .SnpAck | .WBAck | .FenceMark => 2
  | .DatS | .DatE | .DatM | .DatRd | .WBk | .WCln | .SnpDat => 3
  | .SamUpd | .Tlbi | .PotInv | .TagRecov => 4
  | .RegRd | .RegWr | .Intr | .Fence => 5
  | .RegCmp | .BcAck => 6

/-- The plane of a packet (R225): a cacheable line's by its lowest bit, MMIO on data plane 0, the rest on the control plane. -/
def packetPlane (p : Packet) : Nat :=
  if 4 ≤ opClass p.op then 2
  else match p.to_, p.from_ with
    | .io _, _ | _, .io _ => 0
    | _, _ => p.addr % 2

/-- Whether two packets keep their order: same source, destination, plane and channel (R240). -/
def sameLane (p q : Packet) : Bool :=
  p.src == q.src && p.dst == q.dst && opClass p.op == opClass q.op && packetPlane p == packetPlane q

/-- The first packet that satisfies `q`, taken from the fabric, when no earlier one of its lane stands before it (R240). -/
def ordered (q : Packet → Bool) (s : State) : Option (Packet × State) :=
  match s.fab.net.find? q with
  | none => none
  | some p =>
    if (s.fab.net.takeWhile fun x => x != p).any (sameLane p) then none
    else some (p, s.modFab fun f => { f with net := f.net.erase p })

/-- Whether the request a packet carries waits for an answer at its source. -/
def awaited (p : Packet) (s : State) : Bool := (findOut s p.src p.tid).any fun o => o.op == p.op

/-- A request reaches its stop: it crosses in RUN, wakes a gated island, waits while the island wakes, and is answered with
status 2 or 3 in RESET, RESYNC or FENCED (Table 06-12, R254, R257). -/
def arriveReq (q : Packet → Bool) (f : Packet → State → State) (s : State) : State :=
  match ordered q s with
  | none => s
  | some (p, t) =>
    match s.regF .NI_PORT 2 0 p.dst with
    | 0 => f p t
    | 1 => s.setRegF .NI_PORT 2 0 2 p.dst
    | 2 => s
    | 5 => if awaited p t then send (abortReply p 3) t else t
    | _ => if awaited p t then send (abortReply p 2) t else t

/-- A response, data or snoop reaches its stop; in RESET, RESYNC or FENCED it is discarded and counted (Table 06-12). -/
def arriveResp (q : Packet → Bool) (f : Packet → State → State) (s : State) : State :=
  match ordered q s with
  | none => s
  | some (p, t) =>
    match s.regF .NI_PORT 2 0 p.dst with
    | 0 => f p t
    | 1 => s.setRegF .NI_PORT 2 0 2 p.dst
    | 2 => s
    | _ => t.bumpReg .NI_PORT 31 16 p.dst

/-- A request reaches its stop, one in flight or, when none like it is, the one that `mk` hands in. -/
def arriveOrNew (q : Packet → Bool) (mk : State → State) (f : Packet → State → State) (s : State) : State :=
  if s.fab.net.any q then arriveReq q f s else arriveReq q f (mk s)

/-! ## Dirty budgets (05.7) -/

/-- The lines a cache holds. -/
def cacheLines (s : State) (c : CacheId) : List CLine :=
  (s.lines.filter fun e => e.1 / 65536 == cacheNo c).map Prod.snd

/-- R201: dirty lines of an L2 (M or O) or of an L3 slice. -/
def dirtyCount (s : State) (c : CacheId) : Nat :=
  ((cacheLines s c).filter fun l => decide (l.st = .M ∨ l.st = .O)).length

/-- The dirty limit of a cache in lines (Table 05-8). -/
def dirtyLimit (s : State) : CacheId → Nat
  | .l3 _ => min (s.regF .DB_CFG 13 8) 48 * 1024
  | _ => min (s.regF .DB_CFG 4 0) 16 * 1024

/-- Whether a cache may not take one more dirty line (R202, R204). -/
def atLimit (s : State) (c : CacheId) : Bool := decide (dirtyLimit s c ≤ dirtyCount s c)

/-- Whether some cache holds more dirty lines than its limit (DB_STATUS.over). -/
def overLimit (s : State) : Bool :=
  (List.range 144).any (fun n => decide (dirtyLimit s (.l2 n) < dirtyCount s (.l2 n))) ||
    (List.range 72).any fun t => decide (dirtyLimit s (.l3 t) < dirtyCount s (.l3 t))

/-- Whether an L2 has stopped serving the set of a line until its tags are rebuilt (R209). -/
def recovering (s : State) (n line : Nat) : Bool := (NMap.find? s.homes.recov (n * 1024 + line % 1024)).isSome

/-! ## L2 to home -/

/-- The stop of the home of a line, if it has one. -/
def homeStop (s : State) (stop line : Nat) : Option (Nat × Nat) := (homeTile s stop line).map fun t => (t, tileStop t)

/-- An L2 sends a packet that has no answer of its own (WBk, WCln, EvC) to a line's home. -/
def toHome (op : Op) (n line key : Nat) (data : Line) (poison strm : Bool) (s : State) : State :=
  match homeStop s (coreStop n) line with
  | none => s
  | some (t, stop) =>
    send { mkPacket op (coreStop n) stop 0 line key (.core n) (.home t) with data, poison, flag := strm } s

/-- R198: a line with its data enters the writeback buffer and a WBk, or WCln, leaves. -/
def writeBack (n : Nat) (l : CLine) (clean : Bool) (s : State) : State :=
  let s := s.modHomes fun h => { h with wbs := h.wbs ++ [⟨n, l.line, l.key, l.data, l.poison, l.strm, clean⟩] }
  toHome (if clean then .WCln else .WBk) n l.line l.key l.data l.poison l.strm s

/-- R190, R201, R202: a dirty L1D copy is merged into the L2 line. Where the L2 line would become dirty and the L2 is at its
limit, the L2 sends WCln and the line stays clean. -/
def mergeDirty (n line : Nat) (s : State) : State :=
  match findLine s (.l2 n) line, mergedL2 s n line with
  | some (_, old), some new =>
    if old.st = .E ∧ new.st = .M ∧ atLimit s (.l2 n) then
      writeBack n { new with st := .E } true (modLine (.l2 n) line (fun _ => { new with st := .E })
        (modLine (.l1d n) line (fun d => { d with st := .S }) s))
    else mergeL1 n line s
  | _, _ => s

/-! ## L3 slices (R174, R202) -/

/-- How the target of a kind 1 or kind 2 aperture answers a home slice: 0 takes a request, else the status of Table 06-12: the
stop's island, or 4 while its link, or every link of the Socket Link group, is down or cannot carry the request (R535, R570). -/
def apertureStatus (s : State) (stop i : Nat) (cacheable : Bool) : Nat :=
  let a := samSeen s stop .SAM_ACFG i
  let n := fld a 7 4
  if portStatus s (ioStop n) ≠ 0 then portStatus s (ioStop n)
  else if fld a 1 0 = 2 then
    if (List.range 12).any fun m => fld (s.ioAt m).cfg 3 0 == 3 && bit (s.reg .IO_LINK m 0) 63 &&
        (!cacheable || !bit (s.reg .IO_SL m) 48) then 0 else 4
  else if bit (s.reg .IO_LINK n (fld a 9 8)) 63 then 0 else 4

/-- A home sends a line to its memory stop, with fin set in Finish (R466); memory behind an aperture takes it at once. -/
def memWrite (t line key : Nat) (d : Line) (poison : Bool) (s : State) : State :=
  match memOf s (tileStop t) line with
  | some (ch, _) =>
    let c := servingChan s (isMirrored s (tileStop t) line) ch
    send { mkPacket .MemWr (tileStop t) (mcStop c) 0 line key (.home t) (.mc c) with
           data := d, poison, fin := s.fab.finishLevel } s
  | none =>
    match decodeAddr s (tileStop t) (line * 64) with
    | .aperture i =>
      if apertureStatus s (tileStop t) i true = 0 then memStore line key d poison s
      else
        let n := fld (samSeen s (tileStop t) .SAM_ACFG i) 7 4
        record (.io n) { mkRec .uncorrected (ioStop n) 0x40 0x05 0 with addr := some (errAddr key (line * 64)) } s
    | _ => memStore line key d poison s

/-- A line enters the L3 slice `t`. Dirty data beyond the slice's limit goes to memory and the line is allocated clean (R202); a
dirty victim is written to memory. -/
def fillL3 (t line key : Nat) (d : Line) (poison dirty strm : Bool) (s : State) : State :=
  let was : Bool := match findLine s (.l3 t) line with
    | some (_, l) => decide (l.st = .M)
    | none => false
  let full := dirty && !was && atLimit s (.l3 t)
  let s := if full then memWrite t line key d poison s else s
  let r := fillLine (.l3 t) ⟨line, key, if dirty && !full then .M else .E, d, poison, 1, strm⟩ s
  match r.1 with
  | some v =>
    if v.st = .M then shadowMsg t v.line s (memWrite t v.line v.key v.data v.poison r.2) else r.2
  | none => r.2

/-! ## The directory (R175, R199) -/

/-- Core `n` leaves the entry of a line (EvC, WBk, a snoop answered without a copy). -/
def removeHolder (t line n : Nat) (s : State) : State :=
  match findDir s t line with
  | none => s
  | some (w, e) =>
    let e' := { e with pres := e.pres &&& ~~~(1#144 <<< n) }
    setDir t line w (some (if e.st ≠ .S ∧ e.owner = n then { e' with st := .S } else e')) s

/-- R199: the entry of a directory way is given up: its holders' copies go, dirty data into the L3. -/
def evictEntry (t : Nat) (e : DirEnt) (s : State) : State :=
  let val := cachedValue s e.line
  let s' := (holders e).foldl (fun s n => dropCore n e.line s) s
  let s' := setDir t e.line (match findDir s t e.line with | some (w, _) => w | none => 0) none s'
  let s' := match val with
    | some l => if l.st = .M ∨ l.st = .O then fillL3 t l.line l.key l.data l.poison true false s' else s'
    | none => s'
  uncEvent (.tile t) 0x101 [] 1 e.key (shadowMsg t e.line s s')

/-- A way of the directory for a new entry of a line: the lowest free way, else the victim of 05.2 among the entries with no
transaction, which is evicted first (R199). -/
def dirRoom (t line : Nat) (s : State) : Nat × State :=
  let set := cacheSet (.l3 t) line
  let at_ := fun w => NMap.find? s.dir (dirKey t set w)
  match (List.range 16).find? (fun w => (at_ w).isNone) with
  | some w => (w, s)
  | none =>
    let busy := fun w => match at_ w with
      | some e => s.homes.txns.any fun x => x.req.addr == e.line
      | none => false
    let cand := (List.range 16).filter fun w => !busy w
    let cand := if cand = [] then List.range 16 else cand
    let age := fun w => match at_ w with | some e => e.age | none => 0
    let m := cand.foldl (fun a w => max a (age w)) 0
    let v := (cand.find? fun w => age w == m).getD 0
    let older := fun (d : NMap DirEnt) w => match at_ w with
      | some e => NMap.put d (dirKey t set w) { e with age := min 3 (e.age + (3 - m)) }
      | none => d
    let s := { s with dir := cand.foldl older s.dir }
    match NMap.find? s.dir (dirKey t set v) with
    | some e => (v, evictEntry t e s)
    | none => (v, s)

/-- The entry of a line becomes `e`, in its way or a new one. -/
def putDir (t line : Nat) (e : DirEnt) (s : State) : State :=
  match findDir s t line with
  | some (w, _) => setDir t line w (some e) s
  | none => let r := dirRoom t line s; setDir t line r.1 (some e) r.2

/-- The entry EM(R), O(o) + R or S + R. -/
def ownEntry (line key n : Nat) : DirEnt := ⟨line, key, .EM, 1#144 <<< n, n, 0, 1⟩

/-- Core `n` joins the sharers of a line. -/
def addSharer (t line key n : Nat) (st : DirState) (s : State) : State :=
  match findDir s t line with
  | some (w, e) => setDir t line w (some { e with st, pres := e.pres ||| (1#144 <<< n), age := 0 }) s
  | none => putDir t line ⟨line, key, .S, 1#144 <<< n, n, 0, 1⟩ s

/-! ## Grants and reads of memory -/

/-- The number of the core a packet comes from; 144 for any other unit. -/
def coreOf (p : Packet) : Nat := match p.from_ with | .core n => n | _ => 144

/-- R215, R217: a grant of E or M, or a read of DRAM, that the remote tracker of the line's memory stop concerns owes the other
socket a snoop. -/
def remoteCheck (line : Nat) (own : Bool) (s : State) : State :=
  match memOf s 0x02 line with
  | none => s
  | some (ch, _) =>
    let m := s.mc ch
    let need : Bool := match NMap.find? m.tracker line with
      | some ex => own || ex
      | none => decide (0 < m.untracked)
    if need ∧ !m.remoteSnoops.any (fun r => r.1 == line) then
      s.setMc ch { m with remoteSnoops := m.remoteSnoops ++ [(line, own)] }
    else s

/-- Data, or a completion, leaves home `t` for the requester of `p`; `src` is the source code of Table 16-4. -/
def grant (t : Nat) (p : Packet) (op : Op) (d : Line) (poison : Bool) (src : Nat) (s : State) : State :=
  let s := if op = .DatE ∨ op = .DatM ∨ op = .CmpM then remoteCheck p.addr true s else s
  send { mkPacket op (tileStop t) p.src p.tid p.addr p.key (.home t) p.from_ with data := d, poison, arg := src } s

/-- The source code of data from the L3 of tile `t` (Table 16-4). -/
def l3Src (t : Nat) (p : Packet) : Nat := if p.src = tileStop t then 3 else 4

/-- The grant that a read of memory carries, as MemRd's argument codes it. -/
def grantOp : Nat → Op
  | 0 => .DatS
  | 1 => .DatE
  | 2 => .DatM
  | _ => .DatRd

/-- The home reads a line from memory for the requester of `p` with a grant: MemRd, whose data goes straight to the requester, or
the memory behind an aperture at once; a line nothing holds is answered with status 1. -/
def memRead (t : Nat) (p : Packet) (g : Nat) (s : State) : State :=
  match decodeAddr s (tileStop t) (p.addr * 64) with
  | .mem _ ch _ =>
    let c := servingChan s (isMirrored s (tileStop t) p.addr) ch
    send { mkPacket .MemRd (tileStop t) (mcStop c) p.tid p.addr p.key (.home t) (.mc c) with
           fwd := some (p.src, p.tid, p.from_), arg := g } (remoteCheck p.addr (g == 1 || g == 2) s)
  | .aperture i =>
    let st := apertureStatus s (tileStop t) i (p.op != .RdOnce && p.op != .WrPtl)
    if st ≠ 0 then send (abortReply p st) (removeHolder t p.addr (coreOf p) s)
    else
    let v := memValue s p.addr p.key
    grant t p (grantOp g) v.1 v.2 (if apertureKind s (tileStop t) i = 2 then 7 else 8) s
  | _ => send (abortReply p 1) s

/-! ## Transactions (R189, R191, R196, R215) -/

/-- The L3 copy of a line and whether it is dirty. -/
def l3Copy (s : State) (t line : Nat) : Option (CLine × Bool) :=
  (findLine s (.l3 t) line).map fun l => (l.2, decide (l.2.st = .M))

/-- A read with no owner to ask: from the L3 or memory (Table 05-6, RdS in I and S). -/
def serveRead (t : Nat) (p : Packet) (s : State) : State :=
  let n := coreOf p
  let fresh := (findDir s t p.addr).isNone
  match l3Copy s t p.addr with
  | some (l, dirty) =>
    if fresh && dirty then
      grant t p .DatM l.data l.poison (l3Src t p) (putDir t p.addr (ownEntry p.addr p.key n) (dropLine (.l3 t) p.addr s))
    else
      let s := touchLine (.l3 t) p.addr s
      if fresh then grant t p .DatE l.data l.poison (l3Src t p) (putDir t p.addr (ownEntry p.addr p.key n) s)
      else grant t p .DatS l.data l.poison (l3Src t p) (addSharer t p.addr p.key n .S s)
  | none =>
    if fresh then memRead t p 1 (putDir t p.addr (ownEntry p.addr p.key n) s)
    else memRead t p 0 (addSharer t p.addr p.key n .S s)

/-- A read with ownership and no owner left to ask: from the L3, which loses its copy, or memory. -/
def serveOwn (t : Nat) (p : Packet) (s : State) : State :=
  let c := l3Copy s t p.addr
  let s := putDir t p.addr (ownEntry p.addr p.key (coreOf p)) (dropLine (.l3 t) p.addr s)
  match c with
  | some (l, dirty) => grant t p (if dirty then .DatM else .DatE) l.data l.poison (l3Src t p) s
  | none => memRead t p 1 s

/-- Completion of a read for a load or fetch. -/
def finishRdS (t : Nat) (x : Txn) (s : State) : State :=
  let p := x.req
  let n := coreOf p
  if x.sentDat then
    match findDir s t p.addr with
    | some (_, e) =>
      addSharer t p.addr p.key n (if e.st = .EM then (if x.dirty then .O else .S) else e.st) s
    | none => putDir t p.addr ⟨p.addr, p.key, .S, 1#144 <<< n, n, 0, 1⟩ s
  else match x.dat with
    | some d =>
      (match findDir s t p.addr with
       | none =>
         grant t p .DatM d x.poison 5 (putDir t p.addr (ownEntry p.addr p.key n) (dropLine (.l3 t) p.addr s))
       | some _ => grant t p .DatS d x.poison 5 (addSharer t p.addr p.key n .S (fillL3 t p.addr p.key d x.poison true false s)))
    | none => serveRead t p s

/-- Completion of a read with ownership. -/
def finishRdO (t : Nat) (x : Txn) (s : State) : State :=
  let p := x.req
  let own := fun (s : State) => putDir t p.addr (ownEntry p.addr p.key (coreOf p)) (dropLine (.l3 t) p.addr s)
  if x.sentDat then own s
  else match x.dat with
    | some d => grant t p (if x.dirty then .DatM else .DatE) d x.poison 5 (own s)
    | none => serveOwn t p s

/-- Completion of an ownership upgrade: without data while the requester still holds its copy and no other owner gave data. -/
def finishUpg (t : Nat) (x : Txn) (s : State) : State :=
  let p := x.req
  let holds : Bool := match findDir s t p.addr with
    | some (_, e) => e.pres.getLsbD (coreOf p)
    | none => false
  if holds ∧ x.dat = none ∧ !x.sentDat then
    grant t p .CmpM 0 false 0 (putDir t p.addr (ownEntry p.addr p.key (coreOf p)) (dropLine (.l3 t) p.addr s))
  else finishRdO t x s

/-- Completion of RdOnce: nothing changes but what a writeback in flight has brought. -/
def finishRdOnce (t : Nat) (x : Txn) (s : State) : State :=
  let p := x.req
  if x.sentDat then s
  else match x.dat with
    | some d => grant t p .DatRd d x.poison 5 (fillL3 t p.addr p.key d x.poison true false s)
    | none =>
      match l3Copy s t p.addr with
      | some (l, _) => grant t p .DatRd l.data l.poison (l3Src t p) (touchLine (.l3 t) p.addr s)
      | none => memRead t p 3 s

/-- Completion of WrLine: the line into the L3 when it asks for allocation, else to memory (R228). -/
def finishWrLine (t : Nat) (x : Txn) (s : State) : State :=
  let p := x.req
  let s := breakResv p.from_ p.addr s
  let s := match findDir s t p.addr with
    | some (w, _) => setDir t p.addr w none s
    | none => s
  let s := if p.flag then fillL3 t p.addr p.key p.data false true true s
    else memWrite t p.addr p.key p.data false (dropLine (.l3 t) p.addr s)
  grant t p .Cmp 0 false 0 s

/-- Completion of WrPtl: the enabled bytes merged into the current value go to memory, poisoned when that value was and some byte
of it stays (Table 14-5). -/
def finishWrPtl (t : Nat) (p : Packet) (d : Line) (poison : Bool) (s : State) : State :=
  let s := breakResv p.from_ p.addr s
  let s := match findDir s t p.addr with
    | some (w, _) => setDir t p.addr w none s
    | none => s
  let keep := poison && p.mask != BitVec.allOnes 64
  grant t p .Cmp 0 false 0 (memWrite t p.addr p.key (mergeLine d p.data p.mask) keep (dropLine (.l3 t) p.addr s))

/-- A transaction leaves the slice's list. -/
def dropTxn (x : Txn) (s : State) : State := s.modHomes fun h => { h with txns := h.txns.erase x }

/-- A transaction in the list is replaced. -/
def setTxn (x y : Txn) (s : State) : State :=
  s.modHomes fun h => { h with txns := h.txns.map fun z => if z = x then y else z }

/-- Every snoop of an active transaction is answered and any writeback in flight has come: it completes (Table 05-6), and the
shadow follows (R218). A WrPtl with no cached value first reads memory for itself. -/
def finishTxn (x : Txn) (s : State) : State :=
  let t := x.slice
  let p := x.req
  let done := fun (f : State → State) =>
    shadowMsg t p.addr s (f (x.gone.foldl (fun s n => removeHolder t p.addr n s) (dropTxn x s)))
  match p.op with
  | .RdS => done (finishRdS t x)
  | .RdO => done (finishRdO t x)
  | .Upg => done (finishUpg t x)
  | .RdOnce => done (finishRdOnce t x)
  | .WrLine => done (finishWrLine t x)
  | .WrPtl =>
    (match x.dat, l3Copy s t p.addr with
     | some d, _ => done (finishWrPtl t p d x.poison)
     | none, some (l, _) => done (finishWrPtl t p l.data l.poison)
     | none, none =>
       match decodeAddr s (tileStop t) (p.addr * 64) with
       | .mem _ ch _ =>
         let c := servingChan s (isMirrored s (tileStop t) p.addr) ch
         request .MemRd (.home t) (.mc c) (tileStop t) (mcStop c) p.addr p.key (fun q => { q with arg := 3 })
           (setTxn x { x with mem := true } (remoteCheck p.addr true s))
       | _ => let v := memValue s p.addr p.key; done (finishWrPtl t p v.1 v.2))
  | _ => dropTxn x s

/-- The transaction completes when nothing it waits for is outstanding. -/
def tryFinish (x : Txn) (s : State) : State :=
  if x.active && x.acks == 0 && (!x.wbFlight || x.dat.isSome) && !x.mem then finishTxn x s else s

/-- A snoop leaves home `t` for core `n`; `fwd` is the requester the owner forwards to. -/
def snoop (t n : Nat) (op : Op) (line key : Nat) (fwd : Option (Nat × Nat × Unit)) (s : State) : State :=
  let kase := match op with | .SnpS => 0 | .SnpIF => 1 | .SnpI => 2 | _ => 3
  uncEvent (.tile t) 0x104 [kase] 1 key
    (send { mkPacket op (tileStop t) (coreStop n) 0 line key (.home t) (.core n) with fwd } s)

/-- R176: cached copies of a line under another key ID are written back under their own and invalidated. -/
def retag (t line key : Nat) (s : State) : State :=
  let other : Bool := (match findDir s t line with | some (_, e) => e.key != key | none => false) ||
    (match findLine s (.l3 t) line with | some (_, l) => l.key != key | none => false)
  if !other then s
  else
    let val := cachedValue s line
    let s' := match findDir s t line with
      | some (w, e) => setDir t line w none ((holders e).foldl (fun s n => dropCore n line s) s)
      | none => s
    let s' := dropLine (.l3 t) line s'
    let s' := match val with
      | some l => if l.st = .M ∨ l.st = .O then memWrite t line l.key l.data l.poison s' else s'
      | none => s'
    shadowMsg t line s s'

/-- The cases of an L3 lookup event (Table 16-8). -/
def lookupCases (hit : Bool) (op : Op) : List Nat :=
  (if hit then 0 else 1) :: (match op with
    | .RdS => [2]
    | .RdO | .Upg => [3]
    | .RdOnce => [4]
    | .WrLine => [5]
    | _ => [])

/-- A waiting transaction becomes active: the home looks the line up and sends the snoops of Table 05-6. -/
def startTxn (x : Txn) (s : State) : State :=
  let t := x.slice
  let p := x.req
  let s := retag t p.addr p.key s
  let s := uncEvent (.tile t) 0x100 (lookupCases (findLine s (.l3 t) p.addr).isSome p.op) 1 p.key s
  let entry := (findDir s t p.addr).map Prod.snd
  let n := coreOf p
  let owner := match entry with | some e => if e.st = .S then none else some e.owner | none => none
  let others := match entry with | some e => (holders e).filter fun m => owner != some m | none => []
  let holds := match entry with | some e => e.pres.getLsbD n | none => false
  let back := some (p.src, p.tid, p.from_)
  let each := fun (op : Op) (ns : List Nat) (s : State) => ns.foldl (fun s m => snoop t m op p.addr p.key none s) s
  let sendTo := fun (op : Op) (f : Option (Nat × Nat × Unit)) (s : State) => match owner with
    | some o => snoop t o op p.addr p.key f s
    | none => s
  let k := owner.isSome.toNat
  let go := fun (acks : Nat) (f : State → State) =>
    let y := { x with active := true, acks }
    tryFinish y (f (setTxn x y s))
  match p.op with
  | .RdS => go k (sendTo .SnpS back)
  | .RdO => go (k + others.length) (fun s => each .SnpI others (sendTo .SnpIF (if others = [] then back else none) s))
  | .Upg =>
    let rest := others.filter fun m => m != n
    if !holds then go (k + others.length) (fun s => each .SnpI others (sendTo .SnpIF (if others = [] then back else none) s))
    else if owner = some n then go rest.length (each .SnpI rest)
    else go (k + rest.length) (fun s => each .SnpI rest (sendTo .SnpIF none s))
  | .RdOnce => go k (sendTo .SnpOnce back)
  | .WrLine | .WrPtl => go (k + others.length) (fun s => each .SnpI others (sendTo .SnpIF none s))
  | _ => go 0 id

/-- R191: in a slice, each waiting transaction whose line has no active one starts, in order of arrival; `fuel` is the number of
transactions. -/
def pump (t : Nat) : Nat → State → State
  | 0, s => s
  | fuel + 1, s =>
    let mine := s.homes.txns.filter fun x => x.slice == t
    match mine.find? (fun x => !x.active && !mine.any fun y => y.active && y.req.addr == x.req.addr) with
    | none => s
    | some x => pump t fuel (startTxn x s)

/-- The waiting transactions of slice `t` that may start do. -/
def runSlice (t : Nat) (s : State) : State := pump t s.homes.txns.length s

/-- The slice a packet is for. -/
def sliceOf (p : Packet) : Nat := match p.to_ with | .home t => t | _ => 0

/-- A request arrives at its home: it takes one of 192 transaction entries (Table 01-9). -/
def homeRequest (p : Packet) (s : State) : State :=
  let t := sliceOf p
  runSlice t (s.modHomes fun h => { h with txns := h.txns ++ [⟨t, p, false, 0, none, false, false, false, false, false, []⟩] })

/-- Whether a slice takes requests: an entry is free and no error has stopped it (Table 05-11). -/
def sliceOpen (s : State) (t : Nat) : Bool :=
  decide ((s.homes.txns.filter fun x => x.slice == t).length < 192) && !s.homes.stopped.contains t

/-- The active transaction of a line at a slice. -/
def activeTxn (s : State) (t line : Nat) : Option Txn :=
  s.homes.txns.find? fun x => x.slice == t && x.active && x.req.addr == line

/-- The active transaction of a line takes `f` and completes if it can; then what waited behind it starts. -/
def stepTxn (t line : Nat) (f : Txn → Txn) (s : State) : State :=
  match activeTxn s t line with
  | none => s
  | some x => runSlice t (tryFinish (f x) (setTxn x (f x) s))

/-! ## An L2's answer to a snoop (R190, R194, R197, R198) -/

/-- The writeback buffer entry of a line that has left an L2. -/
def wbOf (s : State) (n line : Nat) : Option WbEnt := s.homes.wbs.find? fun w => w.core == n && w.line == line

/-- A packet of core `n`'s L2 to the home that sent it `p`. -/
def fromL2 (n : Nat) (op : Op) (p : Packet) (f : Packet → Packet) (s : State) : State :=
  send (f (mkPacket op (coreStop n) p.src 0 p.addr p.key (.core n) p.from_)) s

/-- Data forwarded by core `n` to the requester a snoop names. -/
def forward (n : Nat) (op : Op) (p : Packet) (l : CLine) (s : State) : State :=
  match p.fwd with
  | some (stop, tid, u) =>
    send { mkPacket op (coreStop n) stop tid p.addr p.key (.core n) u with data := l.data, poison := l.poison, arg := 5 } s
  | none => s

/-- The answer of core `n`'s L2 to a snoop. SnpAck carries 0 when the L2 held no copy, 1 and 2 when it forwarded clean and dirty
data, 3 for SnpI. A line whose WCln has not reached the home counts as dirty. -/
def answerSnoop (n : Nat) (p : Packet) (s : State) : State :=
  let ack := fun (k : Nat) (s : State) => fromL2 n .SnpAck p (fun q => { q with arg := k }) s
  match wbOf s n p.addr, findLine s (.l2 n) p.addr with
  | some _, none => fromL2 n .WBP p id s
  | none, none => ack (if p.op = .SnpI then 3 else 0) s
  | wb, some _ =>
    match p.op with
    | .SnpI => ack 3 (dropCore n p.addr s)
    | .SnpIF =>
      (match mergedL2 s n p.addr with
       | none => s
       | some l =>
         let dirty := decide (l.st = .M ∨ l.st = .O) || wb.isSome
         let s := (dropCore n p.addr s).modHomes fun h => { h with wbs := h.wbs.filter fun w => !(w.core == n && w.line == p.addr) }
         if p.fwd.isSome then ack (if dirty then 2 else 1) (forward n (if dirty then .DatM else .DatE) p l s)
         else fromL2 n .SnpDat p (fun q => { q with data := l.data, poison := l.poison, flag := dirty }) s)
    | op =>
      let s := mergeDirty n p.addr s
      match findLine s (.l2 n) p.addr with
      | none => s
      | some (_, l) =>
        if op = .SnpOnce then ack 1 (forward n .DatRd p l s)
        else
          let dirty := decide (l.st = .M ∨ l.st = .O) || (wbOf s n p.addr).isSome
          ack (if dirty then 2 else 1) (forward n .DatS p l
            (modLine (.l2 n) p.addr (fun x => { x with st := if dirty then .O else .S }) s))

/-! ## Accesses taken whole (05.5, and the walks and copies that a rule takes inside one step) -/

/-- The requests by which an L2 asks for a line. -/
def asksLine (op : Op) : Bool := op == .RdS || op == .RdO || op == .Upg

/-- A request of a core for a line whose grant is on its way: the home is done with it (R194). -/
def grantComing (s : State) (o : Out) : Bool :=
  asksLine o.op &&
    !(s.fab.net.any fun p => p.op == o.op && p.src == o.stop && p.tid == o.tid) &&
    !(s.homes.txns.any fun x => x.req.src == o.stop && x.req.tid == o.tid)

/-- The packets of the protocol that a whole access on a line overtakes. -/
def overtaken (line : Nat) (p : Packet) : Bool :=
  p.addr == line && p.status == 0 && (match p.op with
    | .SnpS | .SnpIF | .SnpI | .SnpOnce | .SnpAck | .WBP | .SnpDat | .DatS | .DatE | .DatM | .CmpM | .WBk | .WCln | .EvC
    | .WBAck | .MemWr => true
    | .MemRd => p.arg != 3 || p.fwd.isNone
    | _ => false)

/-- Before a whole access to a line: writes of it on their way to memory land, grants on their way go back to being requests, and
its active transaction begins again afterwards (log entry 14). -/
def cancelLine (line : Nat) (s : State) : State :=
  let again := s.fab.outs.filter fun o => o.addr == line && grantComing s o
  let s := (s.fab.net.filter fun p => p.op == .MemWr && p.addr == line).foldl
    (fun s p => memStore line p.key p.data p.poison s)
    (s.modFab fun f => { f with net := f.net.filter fun p => !overtaken line p,
                                outs := f.outs.filter fun o => !(o.op == .MemRd && o.addr == line) })
  let s := { s with
    mcs := s.mcs.map fun e => (e.1, { e.2 with ents := e.2.ents.filter fun x =>
      !(!x.write && x.line == line && (x.req.arg != 3 || x.req.fwd.isNone)) })
    homes := { s.homes with txns := s.homes.txns.map fun x =>
      if x.req.addr = line ∧ x.active then
        { x with active := false, acks := 0, dat := none, dirty := false, poison := false, wbFlight := false, sentDat := false,
                 mem := false, gone := [] }
      else x } }
  again.foldl (fun s o => send (mkPacket o.op o.stop o.dst o.tid line o.key o.who
    (match homeTile s o.stop line with | some t => .home t | none => .ni)) s) s

/-- A whole access to a line: nothing of it is on its way while `f` acts, and what waited goes on after it. -/
def whole (line : Nat) (f : State → State) (s : State) : State :=
  match homeTile s 0x02 line with
  | none => f s
  | some t => runSlice t (f (cancelLine line s))

/-- Every cached copy of a line is invalidated. -/
def invalidateAll (line : Nat) (s : State) : State :=
  match homeTile s 0x02 line with
  | none => s
  | some t =>
    let s' := match findDir s t line with
      | some (w, e) => setDir t line w none ((holders e).foldl (fun s n => dropCore n line s) s)
      | none => s
    shadowMsg t line s (dropLine (.l3 t) line
      { s' with homes := { s'.homes with wbs := s'.homes.wbs.filter fun w => w.line ≠ line } })

/-- R189, WrPtl taken whole: bytes of a line are merged into its latest value under a key ID and sent to memory; no cache keeps
it. A partial write into a poisoned line leaves it poisoned; a write of the whole line clears it (Table 14-5). -/
def pokeLine (line key : Nat) (bs : List (Nat × Byte)) (s : State) : State :=
  let r := peekLine s line key
  whole line (fun s => memStore line key (patchLine r.1 bs) (r.2 && decide (bs.length < 64))
    (invalidateAll line (breakResv .ni line s))) s

/-- Consecutive bytes at a physical address, line by line. -/
def poke (pa key : Nat) (bytes : List Byte) (s : State) : State :=
  let first := pa / 64
  let count := (pa + bytes.length + 63) / 64 - first
  (List.range count).foldl (fun s i =>
    let here := (bytes.zipIdx.filter fun e => (pa + e.2) / 64 == first + i).map fun e => ((pa + e.2) % 64, e.1)
    pokeLine (first + i) key here s) s

/-- A little-endian number of `size` bytes. -/
def pokeNat (pa key size v : Nat) (s : State) : State := poke pa key (leBytes size v) s

end Sys2Proof.Machine
end

