-- ==== Sys2Proof/Machine/Xlate.lean ====
section
/-! DEFINITION. Address translation, the Page Ownership Table and the TLB (03.5 to 03.8). -/

namespace Sys2Proof.Machine

/-- A fault of a translation: Table 03-2 code, the table level and stage (Table 03-5), and what X_TVAL receives in the open
world (R100). -/
structure XFault where
  code : Nat
  wlvl : Nat
  host : Bool
  tval : Nat
  gpa : Nat
  deriving DecidableEq, Repr

/-- The roots, stages and identity under which an access is translated. `own` is H's own single stage; `part` the partition of
a sealed access; `key` the key ID without a host stage (R115, R118). -/
structure XCtx where
  regime : Regime
  asid : Nat
  part : Option Nat
  own : Bool
  guestOn : Bool
  guestLvl5 : Bool
  guestRoot : Nat
  hostOn : Bool
  hostLvl5 : Bool
  hostRoot : Nat
  key : Nat
  user : Bool
  devSpace : Bool
  stop : Nat
  deriving DecidableEq, Repr

/-- A leaf a walk has found: output address, page size (its log), permissions, global bit, memory type, key ID. -/
structure Leaf where
  out : Nat
  size : Nat
  r : Bool
  w : Bool
  x : Bool
  u : Bool
  g : Bool
  mt : Nat
  key : Nat
  deriving DecidableEq, Repr

/-! ## Page-table entries (Tables 03-17, 03-18, R112, R113) -/

/-- What a walk makes of an entry. -/
inductive EntryIs where
  | bad | table (next : Nat) | leaf (size : Nat)
  deriving DecidableEq, Repr

/-- The must-be-zero fields of an entry, in either format. -/
def entryZero (host isTable : Bool) (e : W64) : Bool :=
  fld e 11 11 == 0 &&
    (if host then fld e 7 5 == 0 && (!isTable || fld e 63 52 == 0) else fld e 63 52 == 0 && fld e 7 7 == 0)

/-- R112: whether an entry read at level `n` is a table entry, a leaf, or raises a translation fault. -/
def entryIs (host : Bool) (n : Nat) (e : W64) : EntryIs :=
  let c := bit e 10
  match fld e 1 0 with
  | 3 => if n ≤ 1 ∨ !entryZero host true e ∨ fld e 9 8 = 3 then .bad else .table (fld e 51 12 * 4096)
  | 1 =>
    if 3 < n ∨ !entryZero host false e ∨ fld e 9 8 = 3 ∨ (c && decide (n ≠ 1)) then .bad
    else
      let size := if n = 1 then (if c then 16 else 12) else if n = 2 then 21 else 30
      if fld e 51 12 * 4096 % 2 ^ size = 0 then .leaf size else .bad
  | _ => .bad

/-- The leaf an entry gives for an address. -/
def mkLeaf (host : Bool) (e : W64) (size addr : Nat) : Leaf :=
  { out := fld e 51 12 * 4096 + addr % 2 ^ size, size, r := bit e 2, w := bit e 3, x := bit e 4,
    u := !host && bit e 5, g := !host && bit e 6, mt := fld e 9 8, key := if host then fld e 63 52 else 0 }

/-! ## The Page Ownership Table (03.6) -/

/-- The exclusive limit of the POT; 0 when no POT is read (R695). -/
def potLimit (s : State) : Nat := s.regF .POT_LIMIT 51 30 * 2 ^ 30

/-- The low and high doublewords of the POT entry of a page, and whether the read was poisoned (Table 03-19, R696). -/
def potEntry (s : State) (page : Nat) : W64 × W64 × Bool :=
  let a := s.regF .POT_BASE 51 30 * 2 ^ 30 + page * 16
  let r := peekLine s (a / 64) 0
  (lineWord r.1 (a % 64 / 8), lineWord r.1 (a % 64 / 8 + 1), r.2)

/-- POT state, owner, size code, key ID and guest page of an entry. -/
def potState (e : W64) : Nat := fld e 19 16
def potOwner (e : W64) : Nat := fld e 15 0
def potSizeLog (e : W64) : Nat := [12, 16, 21, 30].getD (fld e 21 20) 12
def potKey (e : W64) : Nat := fld e 43 32
def potGpa (hi : W64) : Nat := fld hi 39 0 * 4096

/-- Whether a page is in POT state 0, as every rule that asks it finds it (R695): none when the read is poisoned. -/
def pageOpen (s : State) (pa : Nat) : Option Bool :=
  if potLimit s = 0 then some true
  else if potLimit s ≤ pa then some false
  else let e := potEntry s (pa / 4096); if e.2.2 then none else some (potState e.1 == 0)

/-- Whether a page is in POT state `st` (no page is in states 1 to 3 without a POT, R695). -/
def pageIn (s : State) (pa st : Nat) : Bool :=
  if potLimit s = 0 then st == 0
  else decide (pa < potLimit s) && (let e := potEntry s (pa / 4096); !e.2.2 && potState e.1 == st)

/-- Whether the sealed world is enabled (R697). -/
def sealedEnabled (s : State) : Bool := decide (potLimit s ≠ 0) && !(s.reg .KEY_EPOCH).getLsbD 9

/-- The last test of the ownership procedure on one entry. -/
def ownerOk (part : Option Nat) (lo hi : W64) (gpage key : Nat) : Bool :=
  match part with
  | none => potState lo == 0 || potState lo == 2
  | some p => potOwner lo == p && potGpa hi == gpage &&
      ((potState lo == 1 && key == potKey lo) || (potState lo == 2 && key == 0))

/-- The ownership check of 03.6 (R116, R117, R695, R696): the page size it passes with, or the fault code. -/
def ownership (s : State) (stop : Nat) (part : Option Nat) (pa size gpa key : Nat) : Except Nat Nat :=
  if !inRegion s stop pa then (if part.isSome then .error 0x15 else .ok size)
  else if potLimit s = 0 then (if part.isSome then .error 0x15 else .ok size)
  else if potLimit s ≤ pa then .error 0x15
  else
    let big := pa / 2 ^ size * 2 ^ size
    let e := potEntry s (big / 4096)
    if e.2.2 then .error 0x16
    else if potSizeLog e.1 < size ∨ potGpa e.2.1 ≠ gpa / 2 ^ size * 2 ^ size then
      let e := potEntry s (pa / 4096)
      if e.2.2 then .error 0x16
      else if ownerOk part e.1 e.2.1 (gpa / 4096 * 4096) key then .ok 12 else .error 0x15
    else if ownerOk part e.1 e.2.1 (gpa / 2 ^ size * 2 ^ size) key then .ok size else .error 0x15

/-! ## The walk (03.6) -/

/-- The index of an address at table level `n`. -/
def tableIndex (addr n : Nat) : Nat := addr / 2 ^ (12 + 9 * (n - 1)) % 512

/-- The walk of the host stage, or of H's own stage, from level `n` of a table (R112, R118, R122). `gpa` is the address
translated; a fault code differs between the two stages. -/
def hostWalk (s : State) (c : XCtx) (addr : Nat) : Nat → Nat → Except XFault Leaf
  | 0, _ => .error ⟨if c.own then 0x10 else 0x12, 0, !c.own, addr, addr⟩
  | n + 1, table =>
    let ta := table + tableIndex addr (n + 1) * 8
    let lvl := n + 1
    if !inRegion s c.stop ta then .error ⟨0x14, lvl, !c.own, addr, addr⟩
    else match pageOpen s ta with
      | none => .error ⟨0x16, lvl, !c.own, 0, addr⟩
      | some false => .error ⟨0x15, lvl, !c.own, ta, addr⟩
      | some true =>
        let r := peek s ta 8 0
        if r.2 then .error ⟨0x16, lvl, !c.own, 0, addr⟩
        else match entryIs true lvl (w64 r.1) with
          | .bad => .error ⟨if c.own then 0x10 else 0x12, lvl, !c.own, addr, addr⟩
          | .table next => hostWalk s c addr n next
          | .leaf size => .ok (mkLeaf true (w64 r.1) size addr)

/-- The host stage for a guest physical address (R693). -/
def hostStage (s : State) (c : XCtx) (gpa : Nat) : Except XFault Leaf :=
  let top := if c.hostLvl5 then 5 else 4
  if 2 ^ 52 ≤ gpa ∨ (!c.hostLvl5 ∧ 2 ^ 48 ≤ gpa) then .error ⟨0x12, top, true, gpa, gpa⟩
  else hostWalk s c gpa top c.hostRoot

/-- Where a guest-stage table entry stands: its physical address and the key ID to read it under (R118). -/
def guestTable (s : State) (c : XCtx) (ta : Nat) : Except XFault (Nat × Nat × Bool) :=
  if c.hostOn then
    match hostStage s c ta with
    | .error f => .error f
    | .ok l => if l.r then .ok (l.out, l.key, l.mt == 2) else .error ⟨0x13, 0, true, ta, ta⟩
  else .ok (ta, c.key, false)

/-- The walk of the guest stage from level `n`. -/
def guestWalk (s : State) (c : XCtx) (va : Nat) : Nat → Nat → Except XFault Leaf
  | 0, _ => .error ⟨0x10, 0, false, va, 0⟩
  | n + 1, table =>
    let lvl := n + 1
    match guestTable s c (table + tableIndex va lvl * 8) with
    | .error f => .error f
    | .ok (ta, key, dev) =>
      if dev || !inRegion s c.stop ta then .error ⟨0x14, lvl, false, va, 0⟩
      else
        let r := peek s ta 8 key
        if r.2 then .error ⟨0x16, lvl, false, 0, 0⟩
        else match entryIs false lvl (w64 r.1) with
          | .bad => .error ⟨0x10, lvl, false, va, 0⟩
          | .table next => guestWalk s c va n next
          | .leaf size => .ok (mkLeaf false (w64 r.1) size va)

/-- R693: whether a virtual address is canonical for its number of levels. -/
def canonical (lvl5 : Bool) (va : Nat) : Bool :=
  let b := if lvl5 then 56 else 47
  let top := va / 2 ^ b
  top == 0 || top == 2 ^ (64 - b) - 1

/-- A leaf of a stage that is off: the address itself, every permission. -/
def flatLeaf (addr : Nat) : Leaf := ⟨addr, 30, true, true, true, true, true, 0, 0⟩

/-- The guest or single stage of an address: its leaf. -/
def firstStage (s : State) (c : XCtx) (va : Nat) : Except XFault Leaf :=
  if c.own then
    (let top := if c.hostLvl5 then 5 else 4
     if canonical c.hostLvl5 va then hostWalk s c va top c.hostRoot else .error ⟨0x10, top, false, va, 0⟩)
  else if c.guestOn then
    (let top := if c.guestLvl5 then 5 else 4
     if canonical c.guestLvl5 va then guestWalk s c va top c.guestRoot else .error ⟨0x10, top, false, va, 0⟩)
  else .ok (flatLeaf va)

/-- The memory type that two stages give (R114). -/
def mixType (a b : Nat) : MemType :=
  if a = 2 ∨ b = 2 then .device else if a = 1 ∨ b = 1 then .nonCacheable else .writeBack

/-- R114: the permission fault of an access under two leaves, if any. -/
def permFault (user : Bool) (kind : Access) (g h : Bool × Bool × Bool) (gu : Bool) : Option Nat :=
  let ok := fun (p : Bool × Bool × Bool) => match kind with | .read => p.1 | .write => p.2.1 | .fetch => p.2.2
  if !ok g || (user && !gu) then some 0x11 else if !ok h then some 0x13 else none

/-- R116: `translate(va, kind)`. The TLB entry the walk fills, or its fault. -/
def translate (s : State) (c : XCtx) (va : Nat) (kind : Access) : Except XFault TlbEnt :=
  if !c.own && !c.guestOn && !c.hostOn then
    -- untranslated (R96, R693, R116)
    if 2 ^ 52 ≤ va then .error ⟨0x10, 0, false, va, 0⟩
    else match ownership s c.stop c.part va 12 va c.key with
      | .error code => .error ⟨code, 0, false, if code = 0x16 then 0 else va, va⟩
      | .ok size =>
        let base := va / 2 ^ size * 2 ^ size
        .ok { regime := c.regime, asid := none, va := base, size, gsize := size, hsize := size, gpa := base, pa := base,
              mt := if isDevicePA s c.stop va || (c.devSpace && !inRegion s c.stop va) then .device else .writeBack,
              key := c.key, gr := true, gw := true, gx := true, gu := true, hr := true, hw := true, hx := true,
              l1i := false, l1d := false, l2 := false }
  else match firstStage s c va with
    | .error f => .error f
    | .ok g =>
      match (if c.hostOn then hostStage s c g.out else .ok (flatLeaf g.out)) with
      | .error f => .error f
      | .ok h =>
        match permFault c.user kind (g.r, g.w, g.x) (h.r, h.w, h.x) (g.u || c.own || !c.guestOn) with
        | some 0x11 => .error ⟨0x11, 0, false, va, g.out⟩
        | some _ => .error ⟨0x13, 0, true, g.out, g.out⟩
        | none =>
          let key := if c.hostOn then h.key else if c.own then g.key else c.key
          let size := min g.size h.size
          if 2 ^ 52 ≤ h.out then .error ⟨0x10, 0, false, va, g.out⟩
          else match ownership s c.stop c.part h.out size g.out key with
            | .error code =>
              .error ⟨code, 0, false, if code = 0x16 then 0 else if c.hostOn then g.out else h.out, g.out⟩
            | .ok size =>
              .ok { regime := c.regime, asid := if g.g then none else some c.asid,
                    va := va / 2 ^ size * 2 ^ size, size, gsize := if c.guestOn || c.own then g.size else size,
                    hsize := if c.hostOn then h.size else size, gpa := g.out / 2 ^ size * 2 ^ size,
                    pa := h.out / 2 ^ size * 2 ^ size,
                    mt := if isDevicePA s c.stop h.out then .device
                          else mixType (if c.own || c.guestOn then g.mt else 0) (if c.hostOn then h.mt else 0),
                    key, gr := g.r, gw := g.w, gx := g.x, gu := g.u || c.own || !c.guestOn,
                    hr := h.r, hw := h.w, hx := h.x, l1i := false, l1d := false, l2 := false }

/-! ## A core's regime and TLB -/

/-- The open-world guest regime of a core. -/
def openRegime (c : Core) : Regime := .guest (fld (c.inForce .openW 2 9) 47 32)

/-- The context of an access by core `n` at a level (03.1, 03.3, 03.6). -/
def coreCtx (s : State) (n : Nat) (lvl : Level) : XCtx :=
  let c := s.core n
  let base : XCtx :=
    { regime := .untranslated, asid := 0, part := none, own := false, guestOn := false, guestLvl5 := false,
      guestRoot := 0, hostOn := false, hostLvl5 := false, hostRoot := 0, key := 0, user := lvl == .U,
      devSpace := true, stop := coreStop n }
  match lvl with
  | .F => base
  | .H =>
    let x := c.inForce .openW 2 9
    if bit x 2 then
      { base with regime := .own, own := true, hostLvl5 := bit x 3, hostRoot := fld (c.inForce .openW 2 10) 51 12 * 4096 }
    else base
  | _ =>
    let x := c.inForce c.world 1 9
    let g := { base with
      asid := fld x 63 48, guestOn := bit x 0, guestLvl5 := bit x 1,
      guestRoot := fld (c.inForce c.world 1 8) 51 12 * 4096 }
    match c.world, c.running with
    | .sealedW, some r =>
      { g with regime := .part r.part, part := some r.part, hostOn := true, hostLvl5 := r.hsLvl5, hostRoot := r.hsRoot,
               devSpace := false }
    | _, _ =>
      let h := c.inForce .openW 2 9
      { g with
        regime := openRegime c, hostOn := bit h 0, hostLvl5 := bit h 1,
        hostRoot := fld (c.inForce .openW 2 8) 51 12 * 4096, devSpace := false }

/-- Whether a TLB entry translates an address in a context. -/
def TlbEnt.covers (e : TlbEnt) (c : XCtx) (va : Nat) : Bool :=
  decide (e.regime = c.regime) && (match e.asid with | none => true | some a => a == c.asid) &&
    e.va == va / 2 ^ e.size * 2 ^ e.size

/-- The TLB entry of core `n` for an address in a context. -/
def tlbHit (s : State) (n : Nat) (c : XCtx) (va : Nat) : Option TlbEnt := (s.core n).tlb.find? fun e => e.covers c va

/-- The permission fault of an access that hits a TLB entry. -/
def tlbFault (e : TlbEnt) (c : XCtx) (va : Nat) (kind : Access) : Option XFault :=
  match permFault c.user kind (e.gr, e.gw, e.gx) (e.hr, e.hw, e.hx) e.gu with
  | none => none
  | some 0x11 => some ⟨0x11, 0, false, va, e.gpa + va % 2 ^ e.size⟩
  | some _ => some ⟨0x13, 0, true, e.gpa + va % 2 ^ e.size, e.gpa + va % 2 ^ e.size⟩

/-- Capacities of Table 04-6: L1 ITLB, L1 DTLB and the L2 TLB. -/
def tlbKeep (es : List TlbEnt) : List TlbEnt :=
  let drop := fun (lim : Nat) (has : TlbEnt → Bool) (clr : TlbEnt → TlbEnt) (es : List TlbEnt) =>
    if (es.filter has).length ≤ lim then es
    else match es.find? has with
      | some e => es.map fun x => if x = e then clr x else x
      | none => es
  let es := drop 64 TlbEnt.l1i (fun e => { e with l1i := false }) es
  let es := drop 96 TlbEnt.l1d (fun e => { e with l1d := false }) es
  let es := drop 4096 TlbEnt.l2 (fun e => { e with l2 := false }) es
  es.filter fun e => e.l1i || e.l1d || e.l2

/-- Fills an entry: into the L2 TLB and the L1 TLB of its kind; the oldest entry leaves a full structure (log entry 6). -/
def tlbFillEnt (n : Nat) (fetch : Bool) (e : TlbEnt) (s : State) : State :=
  s.modCore n fun c =>
    { c with tlb := tlbKeep ((c.tlb.filter fun x => !(decide (x.regime = e.regime) && x.asid == e.asid && x.va == e.va
        && x.size == e.size)) ++ [{ e with l1i := fetch, l1d := !fetch, l2 := true }]) }

/-- Removes the entries a test selects from the TLB of core `n`. -/
def tlbDrop (n : Nat) (q : TlbEnt → Bool) (s : State) : State :=
  s.modCore n fun c => { c with tlb := c.tlb.filter fun e => !q e }

end Sys2Proof.Machine
end

