-- ==== Sys2Proof/Machine/Caches.lean ====
section
/-! DEFINITION. What a core's L1s and L2 do: fills, evictions, dirty limits, stores, and a whole ownership transaction taken at
once where a rule drains stores inside one step (chapter 05, R155, R169). -/

namespace Sys2Proof.Machine

/-- R173: a line leaves the L2 of core `n`: its L1 copies first, then a WBk when dirty, else an EvC. -/
def evictL2 (n : Nat) (line : Nat) (s : State) : State :=
  match mergedL2 s n line with
  | none => s
  | some l =>
    let s := dropCore n line s
    if l.st = .M ∨ l.st = .O then writeBack n l false s else toHome .EvC n line l.key 0 false false s

/-- A line enters the L2 of core `n` and its victim leaves (R173, R177, R178). A line granted dirty to an L2 at its limit is
cleaned at once (R202). -/
def fillL2 (n : Nat) (l : CLine) (s : State) : State :=
  let l' := if (l.st = .M) ∧ atLimit s (.l2 n) then { l with st := Moesi.E } else l
  let set := cacheSet (.l2 n) l.line
  let s := match findLine s (.l2 n) l.line with
    | some _ => s
    | none =>
      match chooseVictim s (.l2 n) set with
      | some (w, s) =>
        (match NMap.find? s.lines (wayKey (.l2 n) set w) with
         | some v => evictL2 n v.line s
         | none => s)
      | none => s
  let s := (fillLine (.l2 n) l' s).2
  if l'.st = l.st then s else writeBack n l' true s

/-- A line enters an L1 of core `n`; a dirty L1D victim is merged into the L2 (R173). An LR whose line leaves the L1D loses its
reservation (R69). A copy that is there already stays as it is: a store may have written it since the L2 was asked. -/
def fillL1 (n : Nat) (icache : Bool) (l : CLine) (s : State) : State :=
  let c : CacheId := if icache then .l1i n else .l1d n
  match findLine s c l.line with
  | some (_, o) => if o.key = l.key then s else (fillLine c { l with st := .S } s).2
  | none =>
    let s := match chooseVictim s c (cacheSet c l.line) with
      | some (w, s) =>
        (match NMap.find? s.lines (wayKey c (cacheSet c l.line) w) with
         | some v =>
           if icache then dropLine c v.line s
           else clearResv n v.line (dropLine c v.line (mergeDirty n v.line s))
         | none => s)
      | none => s
    (fillLine c { l with st := .S } s).2

/-- Whether core `n` holds a line in ownership, so that a store may write it (R155). -/
def ownsLine (s : State) (n line key : Nat) : Bool :=
  match hitLine s (.l2 n) line key with
  | some l => decide (l.st = .M ∨ l.st = .E)
  | none => false

/-- R155: bytes are written into a line core `n` owns: the L1D copy, which then holds the newest data. -/
def writeL1 (n line : Nat) (bs : List (Nat × Byte)) (s : State) : State :=
  let full := decide (64 ≤ bs.length)
  breakResv (.core n) line (modLine (.l1d n) line
    (fun l => { l with st := .M, data := patchLine l.data bs, poison := l.poison && !full, age := 0, strm := false }) s)

/-- One whole ownership transaction (RdO, Table 05-6) with every answer it needs: other copies go, the line comes to core `n`
with its latest value, and the directory and the shadow follow. Used where a rule drains stores inside one step. -/
def acquire (n line key : Nat) (s : State) : State :=
  if ownsLine s n line key then s
  else match homeTile s (coreStop n) line with
    | none => s
    | some t =>
      let r := peekLine s line key
      let cached := cachedValue s line
      let dirty : Bool := match cached with
        | some l => decide (l.st ≠ .E ∧ l.st ≠ .S) && l.key == key
        | none => false
      whole line (fun s =>
        let s := invalidateAll line s
        let s := match cached with
          | some l => if l.key = key ∨ l.st = .E ∨ l.st = .S then s else memStore line l.key l.data l.poison s
          | none => s
        let s := putDir t line (ownEntry line key n) s
        let s := match memOf s 0x02 line with
          | some (ch, _) => shadowInc ch line s
          | none => s
        fillL2 n ⟨line, key, if dirty then .M else .E, r.1, r.2, 1, false⟩ s) s

/-- A line of core `n`'s L2 that its L1D lacks is brought into the L1D. -/
def ensureL1D (n line : Nat) (s : State) : State :=
  match findLine s (.l1d n) line, findLine s (.l2 n) line with
  | none, some (_, l) => fillL1 n false { l with strm := false } s
  | _, _ => s

/-- The lines a store's bytes lie in, each with its bytes by offset. -/
def byLine (bytes : List (Nat × Byte)) : List (Nat × List (Nat × Byte)) :=
  let lines := (bytes.map fun e => e.1 / 64).eraseDups
  lines.map fun l => (l, (bytes.filter fun e => e.1 / 64 == l).map fun e => (e.1 % 64, e.2))

/-- A store to normal memory becomes globally visible (R155). -/
def performStore (n : Nat) (e : StoreEnt) (s : State) : State :=
  (byLine e.bytes).foldl (fun s b => writeL1 n b.1 b.2 (ensureL1D n b.1 (acquire n b.1 e.key s))) s

/-- Where a request goes: a register window as RegRd or RegWr on the control plane, an I/O stop as RdDev or WrPtl on data
plane 0, the home of a line, or nowhere (R37, R225, R229, R439). -/
inductive DevTarget where
  | reg (stop off : Nat)
  | io (n : Nat)
  | home (t : Nat)
  | denied
  | nowhere
  deriving DecidableEq, Repr

/-- The target of a request from a stop at a physical address under a key ID (R33, R34, R37, R187, R229, R540). -/
def devTarget (s : State) (stop pa key : Nat) : DevTarget :=
  let toHome : DevTarget := match homeTile s stop (pa / 64) with | some t => .home t | none => .nowhere
  match decodeAddr s stop pa with
  | .reg off => if (stopKind (off >>> 24)).isSome then .reg (off >>> 24) off else .nowhere
  | .aperture i =>
    if key ≠ 0 then .denied
    else if apertureKind s stop i = 1 ∨ apertureKind s stop i = 2 then toHome
    else .io (fld (samSeen s stop .SAM_ACFG i) 7 4)
  | .mem _ _ _ => toHome
  | .nowhere => .nowhere

/-- An aperture access under a key ID other than 0: refused by the requester's NI and logged (R540). -/
def logKeyRefused (stop pa key : Nat) (s : State) : State :=
  record (.fabric stop) { mkRec .uncorrected stop 0x20 0x14 (4 * 2 ^ 8) with
    addr := some (w64 (key % 4096 * 2 ^ 52 + pa % 2 ^ 52)) } s

/-- R588: a store received a non-zero status: an uncorrected-recoverable record in the core bank with its address. -/
def storeAbort (n status pa : Nat) (s : State) : State :=
  record (.core n) { mkRec .uncorrected (coreStop n) 0x05 0x05 (status % 8) with addr := some (w64 (pa % 2 ^ 52)) } s

/-- A write of bytes of one line as WrPtl to a stop. -/
def sendPtl (who to_ : Unit) (src dst addr key : Nat) (bs : List (Nat × Byte)) (s : State) : State :=
  request .WrPtl who to_ src dst addr key
    (fun p => { p with data := patchLine 0 bs, mask := w64 (bs.foldl (fun m e => m ||| 2 ^ e.1) 0), arg := bs.length }) s

/-- A store past the caches leaves the core: posted, no answer waited for (R588). -/
def postDevice (n : Nat) (e : StoreEnt) (s : State) : State :=
  let src := coreStop n
  match devTarget s src e.pa e.key with
  | .reg stop off =>
    request .RegWr (.core n) .ni src stop (off / 8 * 8) 0
      (fun p => { p with data := BitVec.ofNat 512 (leNat (e.bytes.map Prod.snd) * 2 ^ (8 * (off % 8))),
                         mask := w64 ((2 ^ e.size - 1) * 2 ^ (off % 8)), arg := e.size }) s
  | .io i => sendPtl (.core n) (.io i) src (ioStop i) e.pa 0 (e.bytes.map fun b => (b.1 % 64, b.2)) s
  | .home _ =>
    (byLine e.bytes).foldl (fun s b => match homeTile s src b.1 with
      | some t => sendPtl (.core n) (.home t) src (tileStop t) b.1 e.key b.2 s
      | none => s) s
  | .denied => storeAbort n 4 e.pa (logKeyRefused src e.pa e.key s)
  | .nowhere => storeAbort n 1 e.pa (logAbort src e.pa s)

/-- One retired store leaves the store queue. -/
def drainOne (n : Nat) (e : StoreEnt) (s : State) : State := if e.dev then postDevice n e s else performStore n e s

/-- Every retired store of core `n` becomes globally visible, in program order (R85, R155, R169). -/
def drainStores (n : Nat) (s : State) : State :=
  let q := (s.core n).sq
  (q.foldl (fun s e => drainOne n e s) (s.modCore n fun c => { c with sq := [], granted := c.granted.filter fun g => !g.2 }))

end Sys2Proof.Machine
end

