-- ==== Sys2Proof/Machine/Pairs.lean ====
section
/-! DEFINITION. Coxswain pairs: registers and windows, the spill engine, trap entry, segments, loads and stores (chapter 10). -/

namespace Sys2Proof.Machine

/-! ## Registers (Table 02-15) -/

/-- w register `i` of window `win`. -/
def Pair.getW (p : Pair) (win i : Nat) : W32 := NMap.get 0 p.w (win * 16 + i)
def Pair.setW (p : Pair) (win i : Nat) (v : W32) : Pair := { p with w := NMap.set 0 p.w (win * 16 + i) v }

/-- The register a field names: 0 to 7 the globals, k0 reading 0; 8 to 23 w0 to w15 of the current window. -/
def Pair.getR (p : Pair) (f : RegNo) : W32 :=
  if f.toNat = 0 then 0 else if f.toNat < 8 then NMap.get 0 p.k f.toNat else p.getW p.cwp (f.toNat - 8)

/-- A result written to the register a field names. -/
def Pair.setR (p : Pair) (f : RegNo) (v : W32) : Pair :=
  if f.toNat = 0 then p else if f.toNat < 8 then { p with k := NMap.set 0 p.k f.toNat v } else p.setW p.cwp (f.toNat - 8) v

/-- Fields 24 to 31 name no register: ILL. -/
def fieldBad (f : RegNo) : Bool := decide (24 ≤ f.toNat)

/-- The physical register a field names in window `win`; 0 for k0. -/
def physReg (win : Nat) (f : RegNo) : Nat := if f.toNat < 8 then f.toNat else 100 + win * 16 + (f.toNat - 8)

/-- The pair after an instruction that falls through. -/
def Pair.advance (p : Pair) : Pair := { p with pc := p.pc + 4 }

/-- R416: an instruction that reads or writes the destination of the divide in progress, or writes one of its sources, waits. -/
def Pair.stalls (p : Pair) (reads writes : List RegNo) : Bool :=
  match p.div with
  | none => false
  | some d =>
    let dst := physReg d.win d.rd
    let src := [physReg d.win d.rs1, physReg d.win d.rs2]
    (dst ≠ 0 && (reads ++ writes).any fun f => physReg p.cwp f == dst) ||
      writes.any fun f => physReg p.cwp f != 0 && src.contains (physReg p.cwp f)

/-! ## TCM (R435) -/

/-- A byte of a pair's TCM. -/
def tcmByte (s : State) (k off : Nat) : Byte := NMap.get 0 s.tcm (k * 2 ^ 19 + off)
/-- Writes bytes of a pair's TCM. -/
def tcmPut (k off : Nat) (bs : List Byte) (s : State) : State :=
  { s with tcm := bs.zipIdx.foldl (fun m e => NMap.set 0 m (k * 2 ^ 19 + off + e.2) e.1) s.tcm }
/-- A 32-bit word of a pair's TCM. -/
def tcmWord (s : State) (k off : Nat) : W32 :=
  BitVec.ofNat 32 (leNat ((List.range 4).map fun i => tcmByte s k (off + i)))

/-! ## Windows and the spill engine (10.3) -/

/-- The next and the previous of the rotating windows 1 to 7. -/
def nextWin (w : Nat) : Nat := w % 7 + 1
def prevWin (w : Nat) : Nat := if w ≤ 1 then 7 else w - 1

/-- Free rotating windows: neither current nor holding a frame. -/
def Pair.freeWins (p : Pair) : Nat := 6 - p.frames.length

/-- The first 64-byte unit of the spill area and the first beyond it, in force (Table 10-7). -/
def Pair.spillBase (p : Pair) : Nat := (p.cxEff 0x10).toNat % 2 ^ 13
def Pair.spillLimit (p : Pair) : Nat := (p.cxEff 0x10).toNat / 2 ^ 16 % 2 ^ 13

/-- R420: the oldest resident frame is written out; none where the spill would leave the area (R422). -/
def spillFrame (k : Nat) (s : State) : Option State :=
  let p := s.pair k
  match p.frames with
  | [] => some s
  | w :: rest =>
    if p.spillBase + p.depth < p.spillLimit then
      let bytes := (List.range 16).flatMap fun i => leBytes 4 (p.getW w i).toNat
      some ((tcmPut k (64 * (p.spillBase + p.depth)) bytes s).setPair k { p with frames := rest, depth := p.depth + 1 })
    else none

/-- R420: the return to the previous window of pair `k`, filled from the last spilled slot when its frame was spilled; none where
the fill would leave the area (R422). -/
def returnWindow (k : Nat) (s : State) : Option State :=
  let p := s.pair k
  let w := prevWin p.cwp
  match p.frames.reverse, p.depth with
  | _ :: rest, _ => some (s.setPair k { p with cwp := w, frames := rest.reverse })
  | [], 0 => some (s.setPair k { p with cwp := w })
  | [], d + 1 =>
    if p.spillBase + d < p.spillLimit then
      let q := (List.range 16).foldl
        (fun (q : Pair) i => q.setW w i (tcmWord s k (64 * (p.spillBase + d) + 4 * i))) p
      some (s.setPair k { q with cwp := w, depth := d })
    else none

/-! ## Sync class and entry (R426 to R428, R434) -/

/-- The sync-class registers of a pair: CX_STATUS (its world), CX_VBASE, CX_SPILL and the segments. -/
def cxSync (i : Nat) : Bool := i == 0 || i == 4 || i == 0x10 || (decide (0x40 ≤ i) && decide (i < 0xC0))

/-- Pending writes take effect. -/
def Pair.sync (p : Pair) : Pair := { p with eff := p.cxr.filter fun e => cxSync e.1 }

/-- A divide in progress is abandoned and recorded in CX_DIVREPLAY (Table 10-9, cycle 2). -/
def Pair.abandonDivide (p : Pair) : Pair :=
  match p.div with
  | none => p
  | some d => { p.setCx 7 (BitVec.ofNat 32 (2 ^ 31 + d.op * 2 ^ 29 + d.rd.toNat * 2 ^ 10 + d.rs1.toNat * 2 ^ 5 + d.rs2.toNat))
                with div := none }

/-- The sequence of Table 10-9 into window `win`: CX_CAUSE and CX_TVAL, w15 the pc, w14 CX_STATUS, w13 CX_DIVREPLAY, world M, the
level of an interrupt, and the pc from the vector entry, read through the fixed TCM map (R427). -/
def enterWindow (k win : Nat) (causeW tval : W32) (lvl : Option Nat) (ie : Bool) (entry : Nat) (s : State) : State :=
  let p := ((s.pair k).sync.abandonDivide.setCx 1 causeW).setCx 2 tval
  let st := p.cx 0
  let p := (((p.setW win 15 p.pc).setW win 14 st).setW win 13 (p.cx 7)).setCx 7 0
  let l := match lvl with | some l => l | none => st.toNat / 16 % 8
  let p := (p.setCx 0 (BitVec.ofNat 32 (l * 16 + (ie && st.getLsbD 0).toNat))).sync
  s.setPair k { p with cwp := win, wait := none, waiting := false,
                       pc := tcmWord s k ((p.cxEff 4).toNat / 512 % 1024 * 512 + 4 * entry) &&& 0x7FFFF#32 }

/-- R422: the spill-fault handler, in window 0, with ie 0; cause 0x19 for a spill, 0x1A for a fill. -/
def spillFault (k code : Nat) (s : State) : State :=
  let w := (s.pair k).cwp
  (enterWindow k 0 (BitVec.ofNat 32 code) 0 none false 65 s).modPair k fun p => { p with spillRet := w }

/-- The pair that receives the reports of pair `k` (R423, R443), and the input the report raises (Table 14-3). -/
def reportTo (k : Nat) : Nat := if k = 2 then 0 else 2

/-- R423: a trap in window 0 halts the pair and is reported. -/
def haltPair (k : Nat) (s : State) : State := raiseCx (reportTo k) 3 (s.setRegF .CXS_CTL 6 6 1 k)

/-- The next window becomes current, after a spill when fewer than 4 windows would stay free (R421); `f` acts in it. A spill
outside its area enters the spill-fault handler instead. -/
def takeWindow (k : Nat) (f : Nat → State → State) (s : State) : State :=
  let go := fun (s : State) =>
    let p := s.pair k
    f (nextWin p.cwp) (s.setPair k { p with frames := p.frames ++ [p.cwp] })
  if (s.pair k).freeWins < 5 then
    match spillFrame k s with
    | some s => go s
    | none => spillFault k 0x19 s
  else go s

/-- R428: a synchronous trap of pair `k`; CX_STATUS.lvl is unchanged. -/
def cxTrap (k code : Nat) (tval : W32) (s : State) : State :=
  if (s.pair k).cwp = 0 then haltPair k s
  else takeWindow k (fun win s => enterWindow k win (BitVec.ofNat 32 code) tval none true 64 s) s

/-! ## Segments (10.5) -/

/-- Where a byte of a pair's address space lies. -/
inductive SegHit where
  | tcm (off : Nat)
  | rom (off : Nat)
  | dram (pa : Nat) (c : Bool)
  | device (pa : Nat) (r w : Bool)
  | fault
  deriving DecidableEq, Repr

/-- Register `f` of descriptor `n` of the current world, in force. -/
def Pair.seg (p : Pair) (n f : Nat) : Nat := (p.cxEff (0x40 + (if p.worldT then 0x40 else 0) + 4 * n + f)).toNat

/-- The lowest-numbered valid descriptor whose range holds an address. -/
def Pair.segOf (p : Pair) (addr : Nat) : Option Nat :=
  (List.range 16).find? fun n => (p.seg n 0).testBit 0 && decide (p.seg n 0 / 4096 ≤ addr / 4096) &&
    decide (addr / 4096 ≤ p.seg n 1 / 4096)

/-- The physical address or TCM offset a descriptor maps an address to. -/
def Pair.segPa (p : Pair) (n addr : Nat) : Nat :=
  (p.seg n 2 * 4096 + p.seg n 3 % 256 * 2 ^ 44 + (addr - p.seg n 0 / 4096 * 4096)) % 2 ^ 52

/-- R433: whether a DRAM page passes the check of pairs CX1 to CX3, which a cached result spares. -/
def cxOwned (s : State) (k pa : Nat) : Bool :=
  k == 0 || (s.pair k).owned.contains (pa / 4096) ||
    (match ownership s (svStop k) none pa 12 pa 0 with | .ok _ => true | .error _ => false)

/-- R431 to R433: the decision on one byte of an access. -/
def cxByte (s : State) (k : Nat) (kind : Access) (addr : Nat) : SegHit :=
  let p := s.pair k
  if !p.worldT && decide (addr < 2 ^ 19) then .tcm addr
  else if !p.worldT && k == 0 && decide (0xFFFF0000 ≤ addr) then
    (if kind = .write then .fault else .rom (addr - 0xFFFF0000))
  else match p.segOf addr with
    | none => .fault
    | some n =>
      let a := p.seg n 0
      let pa := p.segPa n addr
      let ok : Bool := match kind with | .read => a.testBit 1 | .write => a.testBit 2 | .fetch => a.testBit 3
      if a.testBit 6 then (if ok ∧ pa < 2 ^ 19 then .tcm pa else .fault)
      else if a.testBit 5 then .device pa (a.testBit 1) (a.testBit 2)
      else if ok ∧ cxOwned s k pa then .dram pa (a.testBit 4)
      else .fault

/-- The hits of an access, byte by byte. -/
def cxBytes (s : State) (k : Nat) (kind : Access) (addr size : Nat) : List SegHit :=
  (List.range size).map fun i => cxByte s k kind ((addr + i) % 2 ^ 32)

/-- R432, R65, R89: the trap of an access, with the address of the first byte that meets it: MAL for a misaligned access to a
device segment, a segment fault, then MTF. -/
def cxAccessTrap (addr size : Nat) (hs : List SegHit) : Option (Nat × Nat) :=
  let isDev := fun h => match h with | SegHit.device _ _ _ => true | _ => false
  if addr % size ≠ 0 ∧ hs.any isDev then some (4, addr)
  else match hs.findIdx? (fun h => h == .fault) with
    | some i => some (0x18, (addr + i) % 2 ^ 32)
    | none => if hs.any isDev then some (5, addr) else none

/-- A page that has passed the check enters the 64-entry ownership cache. -/
def cxNote (k : Nat) (hs : List SegHit) (s : State) : State :=
  if k = 0 then s
  else hs.foldl (fun s h => match h with
    | .dram pa _ =>
      if (s.pair k).owned.contains (pa / 4096) then s
      else s.modPair k fun p => { p with owned := (p.owned ++ [pa / 4096]).drop (p.owned.length - 63) }
    | _ => s) s

/-! ## Fetch (10.5, 10.6) -/

/-- How the fetch at the pair's pc stands: ready, a trap, or a miss of the I-cache on a line. -/
inductive FetchIs where
  | ready
  | trap (code : Nat)
  | miss (line : Nat)
  deriving DecidableEq, Repr

/-- The fetch of the instruction at the pair's pc (R431 to R437). -/
def cxFetch (s : State) (k : Nat) : FetchIs :=
  let pc := (s.pair k).pc.toNat
  match cxByte s k .fetch pc with
  | .tcm _ | .rom _ => .ready
  | .device _ _ _ => .trap 5
  | .fault => .trap 0x18
  | .dram pa true =>
    match findLine s (.cxI k) (pa / 64) with
    | some (_, l) => if l.poison then .trap 0x1B else .ready
    | none => .miss (pa / 64)
  | .dram pa false => if (peekLine s (pa / 64) 0).2 then .trap 0x1B else .ready

/-- R437: a miss is requested as RdOnce, unless a miss of that cache is under way. -/
def cxMiss (k line : Nat) (icache : Bool) (s : State) : State :=
  let busy := s.fab.outs.any (fun o => o.who == .pairCache k icache) ||
    (s.pair k).fills.any fun f => f.icache == icache
  if busy then s
  else match homeTile s (svStop k) line with
    | some t => request .RdOnce (.pairCache k icache) (.home t) (svStop k) (tileStop t) line 0 id s
    | none =>
      (logAbort (svStop k) (line * 64) s).modPair k fun p =>
        { p with fills := p.fills ++ [⟨icache, line, 0, true, true⟩] }

/-- An instruction of pair `k` that reads and writes the listed fields: it waits for the pair, its line and the scoreboard, and
raises ILL on a field that names no register (R89, R416, Table 02-15). -/
def onPair (k : Nat) (reads writes : List RegNo) (f : State → State) (s : State) : State :=
  if !pairReady s k then s
  else
    let s := s.modPair k fun p => { p with waiting := false }
    match cxFetch s k with
    | .trap code => cxTrap k code (s.pair k).pc s
    | .miss line => cxMiss k line true s
    | .ready =>
      if (reads ++ writes).any fieldBad then cxTrap k 1 0 s
      else if (s.pair k).stalls reads writes then s
      else f s

/-- The result of an instruction that falls through. -/
def cxResult (k : Nat) (rd : RegNo) (v : W32) (s : State) : State := s.modPair k fun p => (p.setR rd v).advance

/-! ## Loads and stores (10.5 to 10.7) -/

/-- Poison consumed by a pair: cause 0x1B and a record in its service-stop bank (Table 14-5). -/
def cxPoison (k : Nat) (addr : Nat) (s : State) : State :=
  cxTrap k 0x1B (BitVec.ofNat 32 addr) (record (.sv k) (mkRec .uncorrected (svStop k) 0x50 0x04 0) s)

/-- The value of one byte of a load, or the line it waits for. -/
def cxValue (s : State) (k : Nat) (got : List (Nat × Line × Bool)) : SegHit → Except (Nat × Bool) (Byte × Bool)
  | .tcm off => .ok (tcmByte s k off, false)
  | .rom off => .ok (Config.bootRom off, false)
  | .dram pa c =>
    match got.find? (fun g => g.1 == pa / 64) with
    | some g => .ok (lineByte g.2.1 (pa % 64), g.2.2)
    | none =>
      match (if c then findLine s (.cxD k) (pa / 64) else none) with
      | some (_, l) => .ok (lineByte l.data (pa % 64), l.poison)
      | none => .error (pa / 64, c)
  | _ => .ok (0, false)

/-- A load's bytes, or the first line it waits for. -/
def cxGather (s : State) (k : Nat) (got : List (Nat × Line × Bool)) :
    List SegHit → Except (Nat × Bool) (List Byte × Bool)
  | [] => .ok ([], false)
  | h :: hs =>
    match cxValue s k got h, cxGather s k got hs with
    | .error e, _ => .error e
    | .ok _, .error e => .error e
    | .ok b, .ok r => .ok (b.1 :: r.1, b.2 || r.2)

/-- A load of pair `k` (R431 to R438): its trap, its value, or the request of a line and the wait for it. -/
def cxLoad (k : Nat) (rd : RegNo) (addr size : Nat) (se : Bool) (got : List (Nat × Line × Bool)) (s : State) : State :=
  let hs := cxBytes s k .read addr size
  match cxAccessTrap addr size hs with
  | some e => cxTrap k e.1 (BitVec.ofNat 32 e.2) s
  | none =>
    let s := cxNote k hs s
    match cxGather s k got hs with
    | .ok r =>
      if r.2 then cxPoison k addr (s.modPair k fun p => { p with wait := none })
      else
        (cxResult k rd ((extend size se (w64 (leNat r.1))).setWidth 32) s).modPair k fun p => { p with wait := none }
    | .error (line, c) =>
      let s := s.modPair k fun p => { p with wait := some ⟨rd, addr, size, se, line, c, got⟩ }
      if c then cxMiss k line false s
      else match homeTile s (svStop k) line with
        | some t => request .RdOnce (.pair k) (.home t) (svStop k) (tileStop t) line 0 id s
        | none => cxPoison k addr ((logAbort (svStop k) (line * 64) s).modPair k fun p => { p with wait := none })

/-- Bytes of a store that go to DRAM, by line: WrPtl in program order; a line the D-cache holds is updated (R436). -/
def cxStoreLine (k line : Nat) (bs : List (Nat × Byte)) (s : State) : State :=
  let s := modLine (.cxD k) line (fun l => { l with data := patchLine l.data bs }) s
  match homeTile s (svStop k) line with
  | none => logAbort (svStop k) (line * 64) s
  | some t =>
    request .WrPtl (.pair k) (.home t) (svStop k) (tileStop t) line 0
      (fun p => { p with data := patchLine 0 bs,
                         mask := w64 (bs.foldl (fun m e => m ||| 2 ^ e.1) 0), arg := bs.length }) s

/-- The bytes of a store reach the TCM and DRAM. -/
def cxWrite (k : Nat) (hs : List SegHit) (bytes : List Byte) (s : State) : State :=
  let es := hs.zip bytes
  let s := es.foldl (fun s e => match e.1 with
    | .tcm off => tcmPut k off [e.2] s
    | _ => s) s
  let ds := es.filterMap fun e => match e.1 with | .dram pa _ => some (pa, e.2) | _ => none
  (byLine ds).foldl (fun s b => cxStoreLine k b.1 b.2 s) s

/-- A store of pair `k`. -/
def cxStore (k addr : Nat) (bytes : List Byte) (s : State) : State :=
  let hs := cxBytes s k .write addr bytes.length
  match cxAccessTrap addr bytes.length hs with
  | some e => cxTrap k e.1 (BitVec.ofNat 32 e.2) s
  | none => (cxWrite k hs bytes (cxNote k hs s)).modPair k Pair.advance

/-- The line a reservation of a pair covers: TCM lines are numbered from 2^60. -/
def cxLine : SegHit → Nat
  | .dram pa _ => pa / 64
  | .tcm off => 2 ^ 60 + off / 64
  | _ => 2 ^ 61

/-- The bytes an atomic access of a pair reads at one instant, from the TCM or the latest value of memory. -/
def cxPeek (s : State) (k : Nat) (hs : List SegHit) : List Byte × Bool :=
  let bs := hs.map fun h => match h with
    | .tcm off => (tcmByte s k off, false)
    | .rom off => (Config.bootRom off, false)
    | .dram pa _ => let r := peek s pa 1 0; (BitVec.ofNat 8 r.1, r.2)
    | _ => (0, false)
  (bs.map Prod.fst, bs.any Prod.snd)

/-- The bytes an atomic access writes at that instant; a line the D-cache holds is updated. -/
def cxPoke (k : Nat) (hs : List SegHit) (bytes : List Byte) (s : State) : State :=
  let es := hs.zip bytes
  let s := es.foldl (fun s e => match e.1 with
    | .tcm off => tcmPut k off [e.2] s
    | _ => s) s
  let ds := es.filterMap fun e => match e.1 with | .dram pa _ => some (pa, e.2) | _ => none
  (byLine ds).foldl (fun s b =>
    pokeLine b.1 0 b.2 (modLine (.cxD k) b.1 (fun l => { l with data := patchLine l.data b.2 }) s)) s

end Sys2Proof.Machine
end

