-- ==== Sys2Proof/Machine/Trap.lean ====
section
/-! DEFINITION. Taking a trap and returning from one, the SYNC effect, partition entry and exit (03.2, 03.4, 04.8). -/

namespace Sys2Proof.Machine

/-! ## The SYNC effect (R83 to R85, R147) -/

/-- The predictor structures cleared at partition exit, and at an ASID change under K_CTL.pclr (Table 03-15, R146, R147). -/
def Predictor.clearExit (p : Predictor) : Predictor := { p with tagged := [], ind := [], l0 := [], l1 := [], ras := [] }

/-- R145: partition entry clears those, and the sealed-world entries of the bimodal base. -/
def Predictor.clearEntry (p : Predictor) : Predictor :=
  { p.clearExit with bimodal := p.bimodal.filter fun e => !isSealed e.2.1 }

/-- Pending sync-class writes take effect (R84); a change of the open bank's K_XLAT.asid under K_CTL.pclr clears the
predictors (R147). -/
def Core.sync (c : Core) : Core :=
  let old := fld (c.inForce .openW 1 9) 63 48
  let eff := c.sysr.filter fun e => let k := e.1 % 1024; syncClass (k / 256) (k % 256)
  let c := { c with eff }
  if bit (c.inForce .openW 1 10) 1 && old != fld (c.inForce .openW 1 9) 63 48 then
    { c with pred := c.pred.clearExit }
  else c

/-- The full effect of SYNC on a core: retired stores become visible, sync-class writes take effect (R83). A flash clear under
R147 is an event (Table 16-8, 0x00D). -/
def syncCore (n : Nat) (s : State) : State :=
  let s := drainStores n s
  let c := s.core n
  let s := s.setCore n c.sync
  ergEvent n c 0x00D none (bit (c.inForce .openW 1 10) 1 && c.sync.pred != c.pred).toNat s

/-! ## Partition exit (R109 to R111, R700, Tables 03-13, 03-15, 03-16) -/

/-- The registers a partition's save area keeps (Table 03-15): g, v, p, the sealed bank, pc and level. The layout is private to
the part (log entry 7): doublewords of g1–g31, pc, level, then p, v, and the sealed registers by index. -/
def saveWords (c : Core) (pc : W64) : List W64 :=
  ((List.range 31).map fun i => c.getG (i + 1)) ++ [pc, w64 (levelNum c.level)] ++
  ((List.range 7).map fun i => zext (c.getP (i + 1))) ++
  ((List.range 32).flatMap fun i => (List.range 4).map fun j => (c.getV i).extractLsb' (64 * j) 64) ++
  ((List.range 11).map fun i => c.sys .sealedW 1 i) ++ [c.sys .sealedW 0 0] ++
  ((List.range 9).map fun i => c.sys .sealedW 1 (0x20 + i))

/-- A core restored from the words of a save area. -/
def restoreWords (c : Core) (w : List W64) : Core :=
  let at_ := fun i => w.getD i 0
  let c := (List.range 31).foldl (fun c i => c.setG (i + 1) (at_ i)) c
  let c := { c with pc := at_ 31, level := if at_ 32 = 0 then .U else .K }
  let c := (List.range 7).foldl (fun c i => c.setP (i + 1) ((at_ (33 + i)).setWidth 32)) c
  let c := (List.range 32).foldl (fun c i => c.setV i
    ((at_ (40 + 4 * i)).setWidth 256 ||| (at_ (41 + 4 * i)).setWidth 256 <<< 64 |||
     (at_ (42 + 4 * i)).setWidth 256 <<< 128 ||| (at_ (43 + 4 * i)).setWidth 256 <<< 192)) c
  let c := (List.range 11).foldl (fun c i => c.setSys .sealedW 1 i (at_ (168 + i))) c
  let c := c.setSys .sealedW 0 0 (at_ 179)
  (List.range 9).foldl (fun c i => c.setSys .sealedW 1 (0x20 + i) (at_ (180 + i))) c

/-- The scrub of Table 03-15: g, v, p and the sealed bank become 0, the reservation and the predictors are cleared. -/
def Core.scrub (c : Core) : Core :=
  { c with
    g := [], v := [], p := [], resv := none, pred := c.pred.clearExit
    sysr := c.sysr.filter fun e => decide (e.1 < 1024 ∨ 4096 ≤ e.1)
    eff := c.eff.filter fun e => decide (e.1 < 1024)
    wait := none, running := none }

/-- The address of the state field's byte in a descriptor (Table 03-13: bits [39:32] of the first doubleword). -/
def descStateAddr (desc : Nat) : Nat := desc + 4

/-- Steps 3 to 5 of R109: the partition's state is saved with the pc it resumes at, the descriptor goes to `st`, the core is
scrubbed. -/
def leavePartition (n : Nat) (r : Running) (pc : W64) (st : Nat) (s : State) : State :=
  let s := drainStores n s
  let s := poke r.save 0 ((saveWords (s.core n) pc).flatMap fun w => leBytes 8 w.toNat) s
  let s := pokeNat (descStateAddr r.desc) 0 1 st s
  ergEvent n (s.core n) 0x00D none 1 (s.modCore n Core.scrub)

/-- R109: partition exit with a reason, qualification and resume pc. A descriptor in state 3 goes to state 4 (R111). A held
halt request of the debug port is taken here (R130). -/
def partitionExit (n reason q : Nat) (pc : W64) (s : State) : State :=
  match (s.core n).running with
  | none => s
  | some r =>
    let st := (peek s (descStateAddr r.desc) 1 0).1
    let s := leavePartition n r pc (if st = 3 then 4 else 1) s
    s.modCore n fun c =>
      let c := (c.setSys .openW 2 0x0C (w64 (r.part * 256 + reason))).setSys .openW 2 0x0D (w64 q)
      let h := c.sys .openW 2 0
      let c := c.setSys .openW 2 2 c.gateRet
      let c := c.setSys .openW 2 0 (setFld (setBit (setBit h 1 (bit h 0)) 0 false) 5 4 2)
      { c.sync with level := .H, world := .openW, pc := c.sync.inForce .openW 2 1 + 0x300,
                    run := if c.haltReq then .debugHalt else c.run, haltReq := false }

/-! ## Trap entry (R97 to R101) -/

/-- A cause: code, kind of access, table level and stage (Table 03-5), value for X_TVAL. -/
structure Cause where
  code : Nat
  kind : Nat
  wlvl : Nat
  host : Bool
  tval : W64
  deriving DecidableEq, Repr

/-- A cause that is not an access. -/
def cause (code : Nat) : Cause := ⟨code, 3, 0, false, 0⟩

/-- The number of an access kind (Table 03-5). -/
def kindNum : Access → Nat
  | .read => 0
  | .write => 1
  | .fetch => 2

/-- The cause of a translation fault. X_TVAL is an address of the open world only (R100). -/
def Cause.ofFault (f : XFault) (k : Access) : Cause := ⟨f.code, kindNum k, f.wlvl, f.host, w64 f.tval⟩

/-- The word of X_CAUSE (Table 03-5). -/
def Cause.word (c : Cause) : W64 := w64 (c.wlvl * 2 ^ 11 + c.host.toNat * 2 ^ 10 + c.kind * 2 ^ 8 + c.code)

/-- The receiving level of a cause (Table 03-2, 14-4) raised at a level; H's own stage is owned by H (R122). -/
def receiving (code : Nat) (cur : Level) : Level :=
  let base : Level := match code with
    | 0x07 | 0x12 | 0x13 | 0x15 | 0x16 | 0x17 => .H
    | 0x08 => .F
    | _ => .K
  if levelNum base < levelNum cur then cur else base

/-- The level a stage fault of a host stage goes to: a walk-target fault of the host stage is H's (R122). -/
def receivingOf (c : Cause) (cur : Level) : Level :=
  if c.code = 0x14 ∧ c.host then (if cur = .F then .F else .H) else receiving c.code cur

/-- The fault of a fetch at an address at a level, if any (R162, R101). -/
def fetchFault (s : State) (n : Nat) (lvl : Level) (pc : W64) : Option Cause :=
  let ctx := coreCtx s n lvl
  let dev : Cause := ⟨0x05, 2, 0, false, pc⟩
  match tlbHit s n ctx pc.toNat with
  | some e =>
    match tlbFault e ctx pc.toNat .fetch with
    | some f => some (.ofFault f .fetch)
    | none => if e.mt = .device then some dev else none
  | none =>
    match translate s ctx pc.toNat .fetch with
    | .error f => some (.ofFault f .fetch)
    | .ok e => if e.mt = .device then some dev else none

/-- R99 without the jump: EPC, CAUSE, TVAL and STATUS of the receiving level. -/
def Core.saveTrap (c : Core) (x : Level) (epc causeW tval : W64) : Core :=
  let l := levelNum x
  let w := c.world
  let st := c.sys w l 0
  (((c.setSys w l 2 (epc &&& ~~~3#64)).setSys w l 3 causeW).setSys w l 4 tval).setSys w l 0
    (setFld (setBit (setBit st 1 (bit st 0)) 0 false) 5 4 (levelNum c.level))

/-- The vector address of a level and an offset (R99). -/
def vectorPc (c : Core) (x : Level) (off : Nat) : W64 := c.inForce c.world (levelNum x) 1 + w64 off

/-- The next higher level a faulting vector fetch escalates to (R101); in the sealed world H is outside. -/
def nextLevel : Level → Level
  | .U | .K => .H
  | _ => .F

/-- The core halts and logs a fatal record (R101). -/
def haltCore (n code : Nat) (addr : W64) (s : State) : State :=
  record (.core n) { mkRec .fatal (coreStop n) 0x06 0x16 code with addr := some addr }
    (s.modCore n fun c => { c with run := .halted })

/-- The qualification an exit for a fault gives H (R110). -/
def exitQual (code gpa : Nat) : Nat := if code = 0x12 ∨ code = 0x13 ∨ code = 0x15 then gpa / 4096 * 4096 else 0

/-- Enters level `x` at a vector offset: registers saved, SYNC effect, then the first fetch. When that fetch faults the trap
escalates once to the next level, with the fetch fault as cause; a fault at F_TVEC halts the core (R99 to R101). `fuel` bounds
the escalations by the number of levels. -/
def enterLevel (n : Nat) (fuel : Nat) (x : Level) (off : Nat) (epc causeW tval : W64) (s : State) : State :=
  let cur := (s.core n).level
  let s := (syncCore n s).modCore n fun c =>
    let c := { (c.saveTrap x epc causeW tval) with resv := none, wait := none }
    { c with level := x, pc := vectorPc c x off, run := .running }
  match fetchFault s n x (s.core n).pc with
  | none => s
  | some f =>
    if x = .F then haltCore n f.code (s.core n).pc s
    else match fuel with
      | 0 => haltCore n f.code (s.core n).pc s
      | fuel + 1 =>
        if isSealed (s.core n).world then
          partitionExit n f.code (exitQual f.code f.tval.toNat) (s.core n).pc s
        else
          let y := nextLevel x
          enterLevel n fuel y (if levelNum cur < levelNum y then 0x000 else 0x100) (s.core n).pc f.word f.tval s

/-- R97 to R100: a synchronous exception with the trapping pc. In the sealed world a cause for K stays inside; any other exits
the partition with the code as reason (R98), H receiving only what R110 gives. -/
def takeTrap (n : Nat) (c : Cause) (q : Nat) (s : State) : State :=
  let core := s.core n
  let x := receivingOf c core.level
  if isSealed core.world && x != .K then partitionExit n c.code q core.pc s
  else
    let tv := if isSealed core.world && (c.code = 0x12 ∨ c.code = 0x13 ∨ c.code = 0x15) then 0 else c.tval
    enterLevel n 3 x (if levelNum core.level < levelNum x then 0x000 else 0x100) core.pc c.word tv s

/-! ## Interrupts (R575, R576, R168) -/

/-- R575, R576: the interrupt a core takes at a retire boundary: level H (in the sealed world a partition exit) before K, with
its vector. -/
def interruptDue (s : State) (n : Nat) : Option (Level × Nat) :=
  let c := s.core n
  let h := c.vtop .openW 2
  let k := c.vtop c.world 1
  let l := levelNum c.level
  if h ≠ 0 ∧ (l < 2 ∨ (l = 2 ∧ bit (c.sys .openW 2 0) 0)) then some (.H, h)
  else if k ≠ 0 ∧ (l < 1 ∨ (l = 1 ∧ bit (c.sys c.world 1 0) 0)) then some (.K, k)
  else none

/-- Whether a broadcast TLBI of core `n` has not yet reached every core, so that nothing with the effect of SYNC completes there
(R126, R85). -/
def syncBlocked (s : State) (n : Nat) : Bool :=
  s.fab.bcasts.any fun b => decide (b.kind = .tlbi) && decide (b.who = .core n)

/-- An interrupt is taken (R99, R576): entry at the offset of interrupts, or partition exit with reason 0x21. -/
def takeInterrupt (n : Nat) (x : Level) (v : Nat) (s : State) : State :=
  let c := s.core n
  if isSealed c.world && x == .H then partitionExit n 0x21 v c.pc s
  else enterLevel n 3 x 0x200 c.pc (w64 (2 ^ 63 + v)) 0 s

/-- An instruction of core `n` of a class of Table 16-4 meets an exception: an interrupt that is due comes first (R91); the
entry, which has the effect of SYNC, waits while a broadcast TLBI of the core is under way. -/
def raiseCause (n cls : Nat) (c : Cause) (q : Nat) (s : State) : State :=
  if syncBlocked s n then s
  else match interruptDue s n with
    | some e => takeInterrupt n e.1 e.2 s
    | none => takeTrap n c q (sampleUops n (s.core n) { cls } 2 s)

/-- An exception whose cause carries no address. -/
def raise (n cls code : Nat) (s : State) : State := raiseCause n cls (cause code) 0 s

/-- A translation fault as an exception. A poisoned walk also makes a record (R123); a fault that exits the partition reports the
guest page to H (R110). -/
def raiseFault (n cls : Nat) (f : XFault) (k : Access) (s : State) : State :=
  let sec := isSealed (s.core n).world
  let t := raiseCause n cls (.ofFault f k) (exitQual f.code f.gpa) s
  if f.code = 0x16 ∧ !syncBlocked s n ∧ (interruptDue s n).isNone then
    record (.core n) { mkRec .uncorrected (coreStop n) 0x04 0x04 0 with secret := sec } t
  else t

/-! ## TRET (R102, R103) -/

/-- R102: return to the saved level and pc, after the SYNC effect; the reservation is cleared (R69). -/
def returnFrom (n : Nat) (s : State) : State :=
  let c0 := s.core n
  let l := levelNum c0.level
  let st := c0.sys c0.world l 0
  (syncCore n s).modCore n fun c =>
    let c := c.setSys c.world l 0 (setBit st 0 (bit st 1))
    { c with level := levelOf (fld st 5 4), pc := c.sys c.world l 2, resv := none }

/-! ## Partition entry (R105 to R107) -/

/-- The words of a descriptor, and whether its line is poisoned (Table 03-13). -/
def descWords (s : State) (desc : Nat) : List W64 × Bool :=
  let r := peekLine s (desc / 64) 0
  ((List.range 8).map (lineWord r.1), r.2)

/-- The first failed check of Table 03-14, 0 for none. -/
def gateCheck (s : State) (rb : W64) : Nat :=
  let d := rb.toNat
  if d % 256 ≠ 0 ∨ 2 ^ 52 ≤ d ∨ !pageIn s d 3 then 1
  else
    let w := descWords s d
    let w0 := w.1.getD 0 0
    let w1 := w.1.getD 1 0
    if w.2 ∨ fld w0 39 32 ≠ 1 then 2
    else if fld w1 6 0 ≠ s.regF .KEY_EPOCH 6 0 then 3
    else if !sealedEnabled s then 4
    else match keySlot s 0 (fld w1 63 52) with
      | .loaded _ => 0
      | _ => 5

/-- R107: entry into the partition of a checked descriptor. The state goes to 2 with the core number; a first entry starts at
entry_pc at sealed K with every register 0. -/
def enterPartition (n desc : Nat) (s : State) : State :=
  let w := (descWords s desc).1
  let w0 := w.getD 0 0
  let w2 := w.getD 2 0
  let save := fld (w.getD 3 0) 51 12 * 4096
  let started := bit (w.getD 5 0) 0
  let part := fld w0 15 0
  let s := syncCore n s
  let words := (peekBytes s save (189 * 8) 0).1
  let s := pokeNat (descStateAddr desc) 0 1 2 (pokeNat (desc + 2) 0 1 n s)
  let s := if started then s else pokeNat (desc + 40) 0 8 1 s
  let s := ergEvent n (s.core n) 0x00D none 1 s
  s.modCore n fun c =>
    let ret := c.pc + 4
    let c := { c.scrub with pred := c.pred.clearEntry, gateRet := ret, world := .sealedW, level := .K, resv := none,
                            running := some ⟨desc, part, fld (w.getD 1 0) 63 52, fld w2 51 12 * 4096, bit w2 0, save⟩ }
    let c := if started then
        restoreWords c ((List.range 189).map fun i => w64 (leNat ((words.drop (8 * i)).take 8)))
      else { c with pc := w.getD 4 0 }
    -- R581: the held entry of the partition joins the pending bits and is freed
    let c := match (List.range 16).find? (fun i => match NMap.find? c.held i with
        | some h => h.part == part | none => false) with
      | none => c
      | some i =>
        let v : BitVec 256 := match NMap.find? c.held i with | some h => h.vecs | none => 0
        let c := (List.range 4).foldl (fun (c : Core) j =>
          c.setSys .sealedW 1 (0x20 + j) (c.sys .sealedW 1 (0x20 + j) ||| v.extractLsb' (64 * j) 64)) c
        { c with held := NMap.erase c.held i }
    c.sync

/-- R105: a refused GATE: H_EXITR with reason 0x22, the check and the partition it could read; execution continues. -/
def refuseGate (n check : Nat) (rb : W64) (s : State) : State :=
  let w := descWords s rb.toNat
  let unread := check = 1 ∨ (check = 2 ∧ w.2)
  let part := if unread then 0 else fld (w.1.getD 0 0) 15 0
  let s := if check = 2 ∧ w.2 then
      record (.core n) { mkRec .uncorrected (coreStop n) 0x05 0x04 0 with secret := true } s
    else s
  s.modCore n fun c =>
    ((c.setSys .openW 2 0x0C (w64 (check * 2 ^ 24 + part * 256 + 0x22))).setSys .openW 2 0x0D 0).advance

end Sys2Proof.Machine
end

