-- ==== Sys2Proof/Machine/Operands.lean ====
section
/-! DEFINITION. Operand forms: conditions, integer results, vector lanes and predicates, and the shapes of register instructions of
a main core and of a Coxswain pair (02.2 to 02.5, 02.8, 02.11). -/

namespace Sys2Proof.Machine

/-! ## Conditions and integer results (Tables 02-4 to 02-7) -/

/-- Table 02-7. BS and BC name bit b[5:0]; a bit beyond the width of `a` reads 0 (log entry 8). -/
def condHolds {w : Nat} (cond : BitVec 3) (a b : BitVec w) : Bool :=
  match cond.toNat with
  | 0 => a == b
  | 1 => a != b
  | 2 => a.slt b
  | 3 => !a.slt b
  | 4 => a.ult b
  | 5 => !a.ult b
  | 6 => a.getLsbD (b.toNat % 64)
  | _ => !a.getLsbD (b.toNat % 64)

/-- 1 or 0. -/
def flagBit {w : Nat} (b : Bool) : BitVec w := if b then BitVec.ofNat w 1 else 0#w

/-- R58: quotients and remainders; no division traps. -/
def divS {w : Nat} (a b : BitVec w) : BitVec w := if b = 0#w then BitVec.allOnes w else a.sdiv b
def divU {w : Nat} (a b : BitVec w) : BitVec w := if b = 0#w then BitVec.allOnes w else a / b
def remS {w : Nat} (a b : BitVec w) : BitVec w := if b = 0#w then a else a.srem b
def remU {w : Nat} (a b : BitVec w) : BitVec w := if b = 0#w then a else a % b

/-- The high half of a signed or unsigned product. -/
def mulHighS {w : Nat} (a b : BitVec w) : BitVec w := BitVec.ofInt w ((a.toInt * b.toInt) / 2 ^ w)
def mulHighU {w : Nat} (a b : BitVec w) : BitVec w := BitVec.ofNat w ((a.toNat * b.toNat) / 2 ^ w)

/-- Leading zeros, trailing zeros, ones: the width for 0 (Table 02-4). -/
def countLz {w : Nat} (a : BitVec w) : Nat := ((List.range w).find? fun i => a.getLsbD (w - 1 - i)).getD w
def countTz {w : Nat} (a : BitVec w) : Nat := ((List.range w).find? fun i => a.getLsbD i).getD w
def countOnes {w : Nat} (a : BitVec w) : Nat := ((List.range w).filter fun i => a.getLsbD i).length

/-- Byte order reversed. -/
def byteSwap {w : Nat} (a : BitVec w) : BitVec w :=
  BitVec.ofNat w (leNat ((leBytes (w / 8) a.toNat).reverse))

/-- A W form: 32-bit operation, result sign-extended (R56). -/
def wordForm (f : W32 → W32 → W32) (a b : W64) : W64 := sext (f (a.setWidth 32) (b.setWidth 32))

/-- Signed minimum and maximum, unsigned minimum and maximum. -/
def minS {w : Nat} (a b : BitVec w) : BitVec w := if a.slt b then a else b
def maxS {w : Nat} (a b : BitVec w) : BitVec w := if a.slt b then b else a
def minU {w : Nat} (a b : BitVec w) : BitVec w := if a.ult b then a else b
def maxU {w : Nat} (a b : BitVec w) : BitVec w := if a.ult b then b else a

/-! ## Shapes of register instructions -/

/-- A main core that executes instructions now performs one. -/
def onCore (n : Nat) (f : State → State) (s : State) : State := if coreReady s n then f s else s

/-- An instruction of core `n` that changes registers and falls through: it retires (class of Table 16-4). -/
def coreResult (n cls : Nat) (f : Core → Core) (s : State) : State :=
  onCore n (fun s => retire n (s.core n) { cls } (s.modCore n fun c => (f c).advance)) s

/-- An encoding that KA-C lacks: ILL (Table 02-15). -/
def cxIll (k : Nat) (s : State) : State := onPair k [] [] (cxTrap k 1 0) s

/-- A main-core instruction that raises ILL or PRV: classes of Table 16-4. -/
def coreRaise (n cls code : Nat) (s : State) : State := onCore n (raise n cls code) s

/-- rd = f(rs1, rs2) on a main core, rd = g(rs1, rs2) on a pair; ILL on a pair where Table 02-15 has no such form. -/
def opRRR (cls : Nat) (f : W64 → W64 → W64) (g : Option (W32 → W32 → W32)) (a : Agent) (rd rs1 rs2 : RegNo)
    (s : State) : Host.Outcome State Fault Refusal :=
  answer s (match a with
    | .core n => coreResult n cls (fun c => c.setG rd.toNat (f (c.getG rs1.toNat) (c.getG rs2.toNat))) s
    | .cx k =>
      match g with
      | some g => onPair k [rs1, rs2] [rd] (fun s => cxResult k rd (g ((s.pair k).getR rs1) ((s.pair k).getR rs2)) s) s
      | none => cxIll k s)

/-- rd = f(rs1), the other operand being a constant. -/
def opRR (cls : Nat) (f : W64 → W64) (g : Option (W32 → W32)) (a : Agent) (rd rs1 : RegNo) (s : State) :
    Host.Outcome State Fault Refusal :=
  answer s (match a with
    | .core n => coreResult n cls (fun c => c.setG rd.toNat (f (c.getG rs1.toNat))) s
    | .cx k =>
      match g with
      | some g => onPair k [rs1] [rd] (fun s => cxResult k rd (g ((s.pair k).getR rs1)) s) s
      | none => cxIll k s)

/-- A division: at once on a main core; on a pair it starts the divider (R418), and a second divide waits. -/
def opDiv (op : Nat) (f : W64 → W64 → W64) (g : W32 → W32 → W32) (a : Agent) (rd rs1 rs2 : RegNo) (s : State) :
    Host.Outcome State Fault Refusal :=
  answer s (match a with
    | .core n => coreResult n 1 (fun c => c.setG rd.toNat (f (c.getG rs1.toNat) (c.getG rs2.toNat))) s
    | .cx k => onPair k [rs1, rs2] [rd] (fun s =>
        if (s.pair k).div.isSome then s
        else s.modPair k fun p =>
          { p with div := some ⟨op, rd, rs1, rs2, p.cwp, g (p.getR rs1) (p.getR rs2)⟩ }.advance) s)

/-! ## Vector lanes and predicates (02.1, 02.8) -/

/-- The element size in bytes (02.2). -/
def eszBytes (esz : BitVec 2) : Nat := 2 ^ esz.toNat

/-- The number of elements. -/
def lanes (esz : BitVec 2) : Nat := 32 / eszBytes esz

/-- Element `i` of a vector as a number. -/
def lane (esz : BitVec 2) (v : W256) (i : Nat) : Nat :=
  (v.toNat >>> (8 * eszBytes esz * i)) % 2 ^ (8 * eszBytes esz)

/-- R52: whether element `i` is active under a predicate. -/
def active (esz : BitVec 2) (p : W32) (i : Nat) : Bool := p.getLsbD (i * eszBytes esz)

/-- A vector from its elements. -/
def fromLanes (esz : BitVec 2) (f : Nat → Nat) : W256 :=
  BitVec.ofNat 256 ((List.range (lanes esz)).foldl
    (fun a i => a + f i % 2 ^ (8 * eszBytes esz) * 2 ^ (8 * eszBytes esz * i)) 0)

/-- Active elements from `f`, inactive elements kept (R52). -/
def maskLanes (esz : BitVec 2) (p : W32) (old : W256) (f : Nat → Nat) : W256 :=
  fromLanes esz fun i => if active esz p i then f i else lane esz old i

/-- An element-wise integer operation on bit vectors of the element's width. -/
def laneOp (esz : BitVec 2) (f : (w : Nat) → BitVec w → BitVec w → BitVec w) (a b : Nat) : Nat :=
  let w := 8 * eszBytes esz
  (f w (BitVec.ofNat w a) (BitVec.ofNat w b)).toNat

/-- A vector or predicate instruction of a main core; every one is ILL on a pair (Table 02-15). -/
def opVec (f : Core → Core) (a : Agent) (s : State) : Host.Outcome State Fault Refusal :=
  answer s (match a with
    | .core n => coreResult n 6 f s
    | .cx k => cxIll k s)

/-- vd = active elements f(vs1, vs2). -/
def opVVV (f : (w : Nat) → BitVec w → BitVec w → BitVec w) (a : Agent) (vd vs1 vs2 : RegNo) (pm : BitVec 3)
    (esz : BitVec 2) (s : State) : Host.Outcome State Fault Refusal :=
  opVec (fun c =>
    let x := c.getV vs1.toNat
    let y := c.getV vs2.toNat
    c.setV vd.toNat (maskLanes esz (c.getP pm.toNat) (c.getV vd.toNat)
      fun i => laneOp esz f (lane esz x i) (lane esz y i))) a s

/-- A vector instruction with a result the specification does not state for some operands: `f` gets a free value, which is drawn
when `open_` says the result is unstated (log entry 2). -/
def opVecFree (open_ : Core → Bool) (f : W256 → Core → Core) (a : Agent) (s : State) : Host.Outcome State Fault Refusal :=
  answer s (match a with
    | .core n =>
      let v : W256 := (Config.freeLine s.free).setWidth 256
      coreResult n 6 (f v) (if coreReady s n && open_ (s.core n) then { s with free := s.free + 1 } else s)
    | .cx k => cxIll k s)

/-- The active elements of a vector. -/
def activeLanes (esz : BitVec 2) (p : W32) (v : W256) : List Nat :=
  ((List.range (lanes esz)).filter (active esz p)).map (lane esz v)

/-- A minimum or maximum of the active elements of vs1 in element 0 of vd, the rest cleared; with no active element the
specification states no result, and element 0 is a free value. -/
def opReduce (f : (w : Nat) → BitVec w → BitVec w → BitVec w) (a : Agent) (vd vs1 : RegNo) (pm : BitVec 3) (esz : BitVec 2)
    (s : State) : Host.Outcome State Fault Refusal :=
  opVecFree (fun c => (activeLanes esz (c.getP pm.toNat) (c.getV vs1.toNat)).isEmpty)
    (fun v c =>
      c.setV vd.toNat (BitVec.ofNat 256 (match activeLanes esz (c.getP pm.toNat) (c.getV vs1.toNat) with
        | [] => lane esz v 0
        | e :: es => es.foldl (laneOp esz f) e))) a s

/-- A predicate from its elements: inactive elements as `old` has them; bits that govern no element are `rest`. -/
def fromPreds (esz : BitVec 2) (pm rest : W32) (old f : Nat → Bool) : W32 :=
  BitVec.ofNat 32 ((List.range 32).foldl (fun a j =>
    let b := if j % eszBytes esz = 0 then
        (if active esz pm (j / eszBytes esz) then f (j / eszBytes esz) else old (j / eszBytes esz))
      else rest.getLsbD j
    a + b.toNat * 2 ^ j) 0)

/-- A result written to predicate pd: the bits that govern no element at this size are stated nowhere and are free values. -/
def opPred (esz : BitVec 2) (f : W32 → Core → Core) (a : Agent) (s : State) : Host.Outcome State Fault Refusal :=
  opVecFree (fun _ => esz != 0) (fun v c => f (v.setWidth 32) c) a s

/-- pd = ps1 op ps2, element-wise under pm (R81); inactive elements keep their content (R52). -/
def opPPP (f : Bool → Bool → Bool) (a : Agent) (pd ps1 ps2 pm : BitVec 3) (esz : BitVec 2) (s : State) :
    Host.Outcome State Fault Refusal :=
  opPred esz (fun rest c =>
    let x := c.getP ps1.toNat
    let y := c.getP ps2.toNat
    c.setP pd.toNat (fromPreds esz (c.getP pm.toNat) rest (active esz (c.getP pd.toNat))
      fun i => f (active esz x i) (active esz y i))) a s

/-! ## Floating point (R77, R78, R698) -/

/-- An element-wise floating-point operation: rounding by U_FPCTL.rm of the world's bank, its flags set for every active element;
esz 0 is ILL. `f` gives the result bits and flags from the elements of vs1, vs2 and vd. -/
def opFp (f : Fmt → Rm → Nat → Nat → Nat → FRes) (a : Agent) (vd vs1 vs2 : RegNo) (pm : BitVec 3) (esz : BitVec 2)
    (s : State) : Host.Outcome State Fault Refusal :=
  answer s (match a with
    | .cx k => cxIll k s
    | .core n =>
      if esz = 0 then coreRaise n 6 0x01 s
      else coreResult n 6 (fun c =>
        let ctl := c.sys c.world 0 0
        let r := fun i => f (fmtOf esz.toNat) (rmOf (fld ctl 2 0)) (lane esz (c.getV vs1.toNat) i)
          (lane esz (c.getV vs2.toNat) i) (lane esz (c.getV vd.toNat) i)
        let p := c.getP pm.toNat
        let flags := ((List.range (lanes esz)).filter (active esz p)).foldl (fun w i => w ||| (r i).flags) (0 : W64)
        (c.setV vd.toNat (maskLanes esz p (c.getV vd.toNat) fun i => (r i).bits)).setSys c.world 0 0 (ctl ||| flags)) s)

end Sys2Proof.Machine
end

