-- ==== Sys2Proof/Machine/Alu.lean ====
section
/-! DEFINITION. Integer and constant instructions of main cores and of Coxswain pairs, and encodings with no instruction
(02.2, 02.4, 02.11). -/

namespace Sys2Proof.Machine

/-- ILLEGAL_ENCODING (R55): an encoding with no instruction, or with a must-be-zero field that is not zero. -/
def execIllegalEncoding (a : Agent) (_ : W32) (s : State) : Host.Outcome State Fault Refusal :=
  answer s (match a with
    | .core n => coreRaise n 7 0x01 s
    | .cx k => cxIll k s)

/-- ADD (R56). -/
def execAdd (a : Agent) (rd rs1 rs2 : RegNo) (s : State) : Host.Outcome State Fault Refusal :=
  opRRR 0 (fun x y => x + y) (some fun x y => x + y) a rd rs1 rs2 s

/-- SUB (R56). -/
def execSub (a : Agent) (rd rs1 rs2 : RegNo) (s : State) : Host.Outcome State Fault Refusal :=
  opRRR 0 (fun x y => x - y) (some fun x y => x - y) a rd rs1 rs2 s

/-- AND (R56). -/
def execAnd (a : Agent) (rd rs1 rs2 : RegNo) (s : State) : Host.Outcome State Fault Refusal :=
  opRRR 0 (fun x y => x &&& y) (some fun x y => x &&& y) a rd rs1 rs2 s

/-- OR (R56). -/
def execOr (a : Agent) (rd rs1 rs2 : RegNo) (s : State) : Host.Outcome State Fault Refusal :=
  opRRR 0 (fun x y => x ||| y) (some fun x y => x ||| y) a rd rs1 rs2 s

/-- XOR (R56). -/
def execXor (a : Agent) (rd rs1 rs2 : RegNo) (s : State) : Host.Outcome State Fault Refusal :=
  opRRR 0 (fun x y => x ^^^ y) (some fun x y => x ^^^ y) a rd rs1 rs2 s

/-- ANDN (R56). -/
def execAndn (a : Agent) (rd rs1 rs2 : RegNo) (s : State) : Host.Outcome State Fault Refusal :=
  opRRR 0 (fun x y => x &&& ~~~y) (some fun x y => x &&& ~~~y) a rd rs1 rs2 s

/-- SLL (R57). -/
def execSll (a : Agent) (rd rs1 rs2 : RegNo) (s : State) : Host.Outcome State Fault Refusal :=
  opRRR 0 (fun x y => x <<< (y.toNat % 64)) (some fun x y => x <<< (y.toNat % 32)) a rd rs1 rs2 s

/-- SRL (R57). -/
def execSrl (a : Agent) (rd rs1 rs2 : RegNo) (s : State) : Host.Outcome State Fault Refusal :=
  opRRR 0 (fun x y => x >>> (y.toNat % 64)) (some fun x y => x >>> (y.toNat % 32)) a rd rs1 rs2 s

/-- SRA (R57). -/
def execSra (a : Agent) (rd rs1 rs2 : RegNo) (s : State) : Host.Outcome State Fault Refusal :=
  opRRR 0 (fun x y => x.sshiftRight (y.toNat % 64)) (some fun x y => x.sshiftRight (y.toNat % 32)) a rd rs1 rs2 s

/-- ROR (R57). -/
def execRor (a : Agent) (rd rs1 rs2 : RegNo) (s : State) : Host.Outcome State Fault Refusal :=
  opRRR 0 (fun x y => x.rotateRight (y.toNat % 64)) (some fun x y => x.rotateRight (y.toNat % 32)) a rd rs1 rs2 s

/-- ADDW (R56). -/
def execAddw (a : Agent) (rd rs1 rs2 : RegNo) (s : State) : Host.Outcome State Fault Refusal :=
  opRRR 0 (wordForm (· + ·)) none a rd rs1 rs2 s

/-- SUBW (R56). -/
def execSubw (a : Agent) (rd rs1 rs2 : RegNo) (s : State) : Host.Outcome State Fault Refusal :=
  opRRR 0 (wordForm (· - ·)) none a rd rs1 rs2 s

/-- CLZ (R56). -/
def execClz (a : Agent) (rd rs1 : RegNo) (s : State) : Host.Outcome State Fault Refusal :=
  opRR 0 (fun x => w64 (countLz x)) (some fun x => BitVec.ofNat 32 (countLz x)) a rd rs1 s

/-- CTZ (R56). -/
def execCtz (a : Agent) (rd rs1 : RegNo) (s : State) : Host.Outcome State Fault Refusal :=
  opRR 0 (fun x => w64 (countTz x)) (some fun x => BitVec.ofNat 32 (countTz x)) a rd rs1 s

/-- POPC (R56). -/
def execPopc (a : Agent) (rd rs1 : RegNo) (s : State) : Host.Outcome State Fault Refusal :=
  opRR 0 (fun x => w64 (countOnes x)) (some fun x => BitVec.ofNat 32 (countOnes x)) a rd rs1 s

/-- BSWAP (R56). -/
def execBswap (a : Agent) (rd rs1 : RegNo) (s : State) : Host.Outcome State Fault Refusal :=
  opRR 0 byteSwap (some byteSwap) a rd rs1 s

/-- MIN (R56). -/
def execMin (a : Agent) (rd rs1 rs2 : RegNo) (s : State) : Host.Outcome State Fault Refusal :=
  opRRR 0 minS (some minS) a rd rs1 rs2 s

/-- MAX (R56). -/
def execMax (a : Agent) (rd rs1 rs2 : RegNo) (s : State) : Host.Outcome State Fault Refusal :=
  opRRR 0 maxS (some maxS) a rd rs1 rs2 s

/-- MINU (R56). -/
def execMinu (a : Agent) (rd rs1 rs2 : RegNo) (s : State) : Host.Outcome State Fault Refusal :=
  opRRR 0 minU (some minU) a rd rs1 rs2 s

/-- MAXU (R56). -/
def execMaxu (a : Agent) (rd rs1 rs2 : RegNo) (s : State) : Host.Outcome State Fault Refusal :=
  opRRR 0 maxU (some maxU) a rd rs1 rs2 s

/-- SETCC (R56): 1 when the condition holds. -/
def execSetcc (a : Agent) (cond : BitVec 3) (rd rs1 rs2 : RegNo) (s : State) : Host.Outcome State Fault Refusal :=
  opRRR 0 (fun x y => flagBit (condHolds cond x y)) (some fun x y => flagBit (condHolds cond x y)) a rd rs1 rs2 s

/-- MUL (R56): the low half of the product. -/
def execMul (a : Agent) (rd rs1 rs2 : RegNo) (s : State) : Host.Outcome State Fault Refusal :=
  opRRR 1 (fun x y => x * y) (some fun x y => x * y) a rd rs1 rs2 s

/-- MULH (R56); on a pair the high 32 bits of the 64-bit product. -/
def execMulh (a : Agent) (rd rs1 rs2 : RegNo) (s : State) : Host.Outcome State Fault Refusal :=
  opRRR 1 mulHighS (some mulHighS) a rd rs1 rs2 s

/-- MULHU (R56). -/
def execMulhu (a : Agent) (rd rs1 rs2 : RegNo) (s : State) : Host.Outcome State Fault Refusal :=
  opRRR 1 mulHighU (some mulHighU) a rd rs1 rs2 s

/-- MULW (R56). -/
def execMulw (a : Agent) (rd rs1 rs2 : RegNo) (s : State) : Host.Outcome State Fault Refusal :=
  opRRR 1 (wordForm (· * ·)) none a rd rs1 rs2 s

/-- DIV (R58, R418). -/
def execDiv (a : Agent) (rd rs1 rs2 : RegNo) (s : State) : Host.Outcome State Fault Refusal :=
  opDiv 0 divS divS a rd rs1 rs2 s

/-- DIVU (R58, R418). -/
def execDivu (a : Agent) (rd rs1 rs2 : RegNo) (s : State) : Host.Outcome State Fault Refusal :=
  opDiv 1 divU divU a rd rs1 rs2 s

/-- REM (R58, R418). -/
def execRem (a : Agent) (rd rs1 rs2 : RegNo) (s : State) : Host.Outcome State Fault Refusal :=
  opDiv 2 remS remS a rd rs1 rs2 s

/-- REMU (R58, R418). -/
def execRemu (a : Agent) (rd rs1 rs2 : RegNo) (s : State) : Host.Outcome State Fault Refusal :=
  opDiv 3 remU remU a rd rs1 rs2 s

/-- DIVW (R58). -/
def execDivw (a : Agent) (rd rs1 rs2 : RegNo) (s : State) : Host.Outcome State Fault Refusal :=
  opRRR 1 (wordForm divS) none a rd rs1 rs2 s

/-- DIVUW (R58). -/
def execDivuw (a : Agent) (rd rs1 rs2 : RegNo) (s : State) : Host.Outcome State Fault Refusal :=
  opRRR 1 (wordForm divU) none a rd rs1 rs2 s

/-- ADDI (R56). -/
def execAddi (a : Agent) (rd rs1 : RegNo) (imm : BitVec 14) (s : State) : Host.Outcome State Fault Refusal :=
  opRR 0 (fun x => x + sext imm) (some fun x => x + imm.signExtend 32) a rd rs1 s

/-- ADDIW (R56). -/
def execAddiw (a : Agent) (rd rs1 : RegNo) (imm : BitVec 14) (s : State) : Host.Outcome State Fault Refusal :=
  opRR 0 (fun x => wordForm (· + ·) x (sext imm)) none a rd rs1 s

/-- ANDI (R56). -/
def execAndi (a : Agent) (rd rs1 : RegNo) (imm : BitVec 14) (s : State) : Host.Outcome State Fault Refusal :=
  opRR 0 (fun x => x &&& sext imm) (some fun x => x &&& imm.signExtend 32) a rd rs1 s

/-- ORI (R56). -/
def execOri (a : Agent) (rd rs1 : RegNo) (imm : BitVec 14) (s : State) : Host.Outcome State Fault Refusal :=
  opRR 0 (fun x => x ||| zext imm) (some fun x => x ||| imm.setWidth 32) a rd rs1 s

/-- XORI (R56). -/
def execXori (a : Agent) (rd rs1 : RegNo) (imm : BitVec 14) (s : State) : Host.Outcome State Fault Refusal :=
  opRR 0 (fun x => x ^^^ zext imm) (some fun x => x ^^^ imm.setWidth 32) a rd rs1 s

/-- SLTI (R56). -/
def execSlti (a : Agent) (rd rs1 : RegNo) (imm : BitVec 14) (s : State) : Host.Outcome State Fault Refusal :=
  opRR 0 (fun x => flagBit (x.slt (sext imm))) (some fun x => flagBit (x.slt (imm.signExtend 32))) a rd rs1 s

/-- SLTIU (R56): the immediate is sign-extended, the comparison unsigned. -/
def execSltiu (a : Agent) (rd rs1 : RegNo) (imm : BitVec 14) (s : State) : Host.Outcome State Fault Refusal :=
  opRR 0 (fun x => flagBit (x.ult (sext imm))) (some fun x => flagBit (x.ult (imm.signExtend 32))) a rd rs1 s

/-- SLLI (R57); on a pair the amount is bits [4:0]. -/
def execSlli (a : Agent) (rd rs1 : RegNo) (sh : BitVec 6) (s : State) : Host.Outcome State Fault Refusal :=
  opRR 0 (fun x => x <<< (sh.toNat % 64)) (some fun x => x <<< (sh.toNat % 32)) a rd rs1 s

/-- SRLI (R57); on a pair the amount is bits [4:0]. -/
def execSrli (a : Agent) (rd rs1 : RegNo) (sh : BitVec 6) (s : State) : Host.Outcome State Fault Refusal :=
  opRR 0 (fun x => x >>> (sh.toNat % 64)) (some fun x => x >>> (sh.toNat % 32)) a rd rs1 s

/-- SRAI (R57); on a pair the amount is bits [4:0]. -/
def execSrai (a : Agent) (rd rs1 : RegNo) (sh : BitVec 6) (s : State) : Host.Outcome State Fault Refusal :=
  opRR 0 (fun x => x.sshiftRight (sh.toNat % 64)) (some fun x => x.sshiftRight (sh.toNat % 32)) a rd rs1 s

/-- RORI (R57); on a pair the amount is bits [4:0]. -/
def execRori (a : Agent) (rd rs1 : RegNo) (sh : BitVec 6) (s : State) : Host.Outcome State Fault Refusal :=
  opRR 0 (fun x => x.rotateRight (sh.toNat % 64)) (some fun x => x.rotateRight (sh.toNat % 32)) a rd rs1 s

/-- SHORI (R56). -/
def execShori (a : Agent) (rd rs1 : RegNo) (imm : BitVec 14) (s : State) : Host.Outcome State Fault Refusal :=
  opRR 0 (fun x => (x <<< 14) ||| zext imm) (some fun x => (x <<< 14) ||| imm.setWidth 32) a rd rs1 s

/-- ADDPC (R56): pc plus the immediate, shifted left by 14 when `shift`. -/
def execAddpc (a : Agent) (rd : RegNo) (shift : Bool) (imm : BitVec 14) (s : State) : Host.Outcome State Fault Refusal :=
  answer s (match a with
    | .core n => coreResult n 0 (fun c => c.setG rd.toNat (c.pc + (if shift then sext imm <<< 14 else sext imm))) s
    | .cx k => onPair k [] [rd] (fun s => cxResult k rd
        ((s.pair k).pc + (if shift then imm.signExtend 32 <<< 14 else imm.signExtend 32)) s) s)

end Sys2Proof.Machine
end

