-- ==== Sys2Proof/Machine/MemOps.lean ====
section
/-! DEFINITION. Memory instructions of a main core: resolving addresses, forwarding, fills, device accesses and completion (02.6,
02.7, 04.4, 04.5, 05.3). -/

namespace Sys2Proof.Machine

/-! ## What an instruction touches -/

/-- The byte offsets an instruction accesses (R79: the active elements only). -/
def MemOp.offsets (op : MemOp) : List Nat :=
  match op.kind with
  | .loadVec _ lanes => (List.range op.size).filter fun i => lanes.getLsbD i
  | .store bytes => bytes.map Prod.fst
  | _ => List.range op.size

/-- The permissions an instruction needs (R67, R87). -/
def MemOp.needs (op : MemOp) : List Access :=
  match op.kind with
  | .store _ | .sc _ _ => [.write]
  | .atom _ _ _ => [.write, .read]
  | .dc o => [if o = 2 then .write else .read]
  | _ => [.read]

/-- The class of Table 16-4, and the micro-operations of R134. -/
def MemOp.cls (op : MemOp) : Nat :=
  match op.kind with
  | .load _ _ | .loadPair _ | .loadVec _ _ => 2
  | .store _ => 3
  | .atom _ _ _ | .lr _ | .sc _ _ => 4
  | _ => 7
def MemOp.uops (op : MemOp) : Nat :=
  match op.kind with
  | .atom _ _ _ | .sc _ _ => 2
  | _ => 1

/-- Whether a core runs in guarded mode (R159). -/
def guarded (c : Core) : Bool :=
  match c.level with
  | .F => true
  | .H => bit (c.inForce .openW 2 0x0B) 0
  | _ => isSealed c.world || bit (c.inForce .openW 1 0x0A) 0

/-- How the addresses of an instruction resolve in the TLB: each offset with its physical address and entry; the address of the
first page with no entry; or the fault of the lowest faulting byte (R65, R79). -/
inductive Resolved where
  | ok (bs : List (Nat × Nat × TlbEnt))
  | miss (va : Nat)
  | bad (f : XFault) (k : Access)
  deriving DecidableEq, Repr

/-- Resolves the offsets of an instruction in ascending order. -/
def resolveGo (s : State) (n : Nat) (ctx : XCtx) (op : MemOp) : List Nat → Resolved
  | [] => .ok []
  | i :: is =>
    let va := (op.va.toNat + i) % 2 ^ 64
    match tlbHit s n ctx va with
    | none => .miss va
    | some e =>
      match op.needs.findSome? (fun k => (tlbFault e ctx va k).map fun f => (f, k)) with
      | some r => .bad r.1 r.2
      | none =>
        match resolveGo s n ctx op is with
        | .ok bs => .ok ((i, e.pa + (va - e.va), e) :: bs)
        | r => r

/-- Resolves an instruction of core `n`. -/
def resolve (s : State) (n : Nat) (op : MemOp) : Resolved :=
  resolveGo s n (coreCtx s n (s.core n).level) op op.offsets

/-- The bytes of a value by offset. -/
def byteList (size n : Nat) : List (Nat × Byte) := (leBytes size n).zipIdx.map fun e => (e.2, e.1)

/-! ## Completion -/

/-- An instruction completes: `f` writes its registers, the core goes on and the instruction retires. -/
def finishMem (n : Nat) (w : Wait) (f : Core → Core) (s : State) : State :=
  let c := s.core n
  let s := s.modCore n fun c => { (f c).advance with wait := none, granted := c.granted.filter Prod.snd }
  let s := if w.phase = .held then ergEvent n c 0x00E none 1 s else s
  retire n c { cls := w.op.cls, uops := w.op.uops, va := w.op.va, tlb := w.tlb, src := w.src } s

/-- The core waits. -/
def waitMem (n : Nat) (w : Wait) (s : State) : State := s.modCore n fun c => { c with wait := some w }

/-- The bytes a load has read, by offset, become its result (Tables 02-9, 02-12; R692). -/
def loadResult (op : MemOp) (get : Nat → Byte) (c : Core) : Core :=
  let num := fun (a k : Nat) => w64 (leNat ((List.range k).map fun i => get (a + i)))
  match op.kind with
  | .load rt se => c.setG rt (extend op.size se (num 0 op.size))
  | .lr rd => c.setG rd (extend op.size true (num 0 op.size))
  | .loadPair rt => (c.setG rt (num 0 8)).setG (rt + 1) (num 8 8)
  | .loadVec vd lanes =>
    let old := c.getV vd
    c.setV vd (BitVec.ofNat 256 (leNat ((List.range 32).map fun i =>
      if lanes.getLsbD i then get i else old.extractLsb' (8 * i) 8)))
  | _ => c

/-- Poison consumed (R590, R591): cause 0x17 at the access and a record in the core bank. -/
def consumePoison (n : Nat) (w : Wait) (pa key : Nat) (s : State) : State :=
  let e := coreErr s n .uncorrected 0x05 0x04 0 key pa
  raiseCause n w.op.cls ⟨0x17, 0, 0, false, w.op.va⟩ 0 (record (.core n) e s)

/-! ## Lines of the L1D (04.4, 05.3) -/

/-- The request a core sends for a line: RdS, RdO, or Upg from a shared or owned copy (Table 05-5). -/
def lineOp (s : State) (n line key : Nat) (own : Bool) : Op :=
  if !own then .RdS else if (hitLine s (.l2 n) line key).isSome then .Upg else .RdO

/-- An L2 miss: the request leaves for the home, unless one for the line is under way (R157) or all 64 miss trackers are in use
(Table 04-9). The status is not 0 where the core's own NI aborts it. -/
def requestLine (n line key : Nat) (own : Bool) (s : State) : Nat × State :=
  let src := coreStop n
  let mine := s.fab.outs.filter fun o => o.who == .core n && (o.op == .RdS || o.op == .RdO || o.op == .Upg)
  if mine.any (fun o => o.addr == line) ∨ 64 ≤ mine.length then (0, s)
  else match devTarget s src (line * 64) key with
    | .home t => (0, request (lineOp s n line key own) (.core n) (.home t) src (tileStop t) line key id s)
    | .denied => (4, logKeyRefused src (line * 64) key s)
    | _ => (1, logAbort src (line * 64) s)

/-- The stream prefetcher learns an L2 miss: it continues a stream, or begins one; the oldest of 32 leaves (log entry 13). -/
def Core.trainStream (c : Core) (line key : Nat) : Core :=
  let goes := fun (t : PfStream) (up : Bool) => t.key == key && (if up then line == t.last + 1 else line + 1 == t.last) &&
    (t.count == 1 || t.up == up)
  match c.pfStream.find? (fun t => goes t true || goes t false) with
  | some t =>
    let up := line == t.last + 1
    { c with pfStream := c.pfStream.filter (fun x => x != t) ++ ([⟨line, key, up, satAdd t.count 1 4⟩] : List PfStream) }
  | none => { c with pfStream := (c.pfStream ++ ([⟨line, key, true, 1⟩] : List PfStream)).drop (c.pfStream.length - 31) }

/-- The stride prefetcher learns a load's address; the oldest of 16 entries leaves (log entry 13). -/
def Core.trainStride (c : Core) (pa key : Nat) : Core :=
  match c.pfStride.find? (fun t => t.pc == c.pc) with
  | some t =>
    let d : Int := (pa : Int) - t.last
    let t' : PfStride := ⟨c.pc, pa, key, d, if t.key = key ∧ d = t.stride ∧ d ≠ 0 then satAdd t.count 1 3 else 1⟩
    { c with pfStride := c.pfStride.map fun x => if x.pc == c.pc then t' else x }
  | none => { c with pfStride := (c.pfStride ++ ([⟨c.pc, pa, key, 0, 0⟩] : List PfStride)).drop (c.pfStride.length - 15) }

/-- The prefetchers learn an L1D miss (Table 05-2). -/
def trainMiss (n line key : Nat) (s : State) : State :=
  let l2 := (hitLine s (.l2 n) line key).isSome
  s.modCore n fun c =>
    let c := { c with pfNext := ((line, key) :: c.pfNext).take 32 }
    if l2 then c else c.trainStream line key

/-- A line the L1D lacks takes one of 32 fill buffers, and the L2 asks for it when it lacks it; with no buffer free the miss
waits where it is (Table 04-9). -/
def startFill (n line key : Nat) (own strm : Bool) (s : State) : Nat × State :=
  let has := (s.core n).fills.any fun f => f.1 == line
  if !has && decide (32 ≤ (s.core n).fills.length) then (0, s) else
  let s := if has then s else
    (trainMiss n line key s).modCore n fun c => { c with fills := c.fills ++ [(line, key, strm)] }
  let have_ : Bool := match hitLine s (.l2 n) line key with
    | some l => !own || decide (l.st = .M ∨ l.st = .E)
    | none => false
  if have_ then (0, s) else requestLine n line key own s

/-- A fill that a core's own NI or the fabric aborts: poisoned data that no cache keeps, and a deferred record (R589). -/
def abortFill (n line key status : Nat) (s : State) : State :=
  let s := s.modCore n fun c => { c with fills := c.fills.filter fun f => f.1 != line }
  record (.core n) { coreErr s n .deferred 0x05 0x05 (status % 8) key (line * 64) with misc := none } s

/-- The waiting instruction of a core meets an aborted fill of one of its lines: it consumes the poison. -/
def abortWait (n line key status : Nat) (w : Wait) (s : State) : State :=
  consumePoison n w (line * 64) key (abortFill n line key status s)

/-- Lines are asked for, and the core waits; an abort ends the instruction. -/
def awaitLines (n : Nat) (own : Bool) (w : Wait) : List (Nat × Nat) → State → State
  | [], s => waitMem n { w with phase := .line own } s
  | (l, key) :: ls, s =>
    match startFill n l key own w.op.s (s.modCore n fun c => { c with quiet := c.quiet.filter fun q => q.1 != l }) with
    | (0, s) => awaitLines n own w ls s
    | (st, s) => abortWait n l key st w s

/-! ## Loads from write-back memory (R153 to R157) -/

/-- The byte a store queue entry holds for a physical address. -/
def StoreEnt.byteAt (e : StoreEnt) (pa : Nat) : Option Byte := (e.bytes.find? fun b => b.1 == pa).map Prod.snd

/-- The newest entry of the store queue that touches one of the addresses. -/
def youngest (q : List StoreEnt) (pas : List Nat) : Option StoreEnt :=
  q.reverse.find? fun e => pas.any fun p => (e.byteAt p).isSome

/-- The distinct lines of a resolved instruction with their key IDs, ascending by offset. -/
def linesOf (bs : List (Nat × Nat × TlbEnt)) : List (Nat × Nat) := (bs.map fun b => (b.2.1 / 64, b.2.2.key)).eraseDups

/-- The lines of a resolved instruction that the L1D lacks. -/
def linesMissing (s : State) (n : Nat) (bs : List (Nat × Nat × TlbEnt)) : List (Nat × Nat) :=
  (linesOf bs).filter fun l => (hitLine s (.l1d n) l.1 l.2).isNone

/-- The key ID of the first byte of a resolved instruction. -/
def keyOf (bs : List (Nat × Nat × TlbEnt)) : Nat := match bs with | b :: _ => b.2.2.key | [] => 0

/-- The byte of the L1D at a physical address, and whether its line is poisoned. -/
def l1Byte (s : State) (n pa key : Nat) : Byte × Bool :=
  match hitLine s (.l1d n) (pa / 64) key with
  | some l => (lineByte l.data (pa % 64), l.poison)
  | none => (0, false)

/-- A load from write-back memory ends: the stride prefetcher learns its address (Table 05-2). -/
def finishLoad (n : Nat) (w : Wait) (bs : List (Nat × Nat × TlbEnt)) (f : Core → Core) (s : State) : State :=
  finishMem n w f (match w.op.kind, bs with
    | .load _ _, b :: _ => s.modCore n fun c => c.trainStride b.2.1 (keyOf bs)
    | _, _ => s)

/-- The bytes of an instruction that are in the L1D: the result, or poison. -/
def readL1 (n : Nat) (w : Wait) (bs : List (Nat × Nat × TlbEnt)) (f : Core → Core) (s : State) : State :=
  match bs.find? (fun b => (l1Byte s n b.2.1 b.2.2.key).2) with
  | some b => consumePoison n w b.2.1 b.2.2.key s
  | none =>
    let get := fun i => match bs.find? (fun b => b.1 == i) with
      | some b => (l1Byte s n b.2.1 b.2.2.key).1
      | none => 0
    let w := if w.src = 0 then { w with src := 1 } else w
    finishLoad n w bs (fun c => f (loadResult w.op get c)) ((linesOf bs).foldl (fun s l => touchLine (.l1d n) l.1 s) s)

/-- A load of core `n` from write-back memory: from one older store that holds all its bytes, else from the L1D after older
overlapping stores have written it (R154); a line the L1D lacks is asked for. -/
def loadWb (n : Nat) (w : Wait) (bs : List (Nat × Nat × TlbEnt)) (f : Core → Core) (fwd : Bool) (s : State) : State :=
  let pas := bs.map fun b => b.2.1
  let s := if w.op.acq then drainStores n s else s
  match (if fwd then youngest (s.core n).sq pas else none) with
  | some e =>
    if pas.all (fun p => (e.byteAt p).isSome) then
      let get := fun i => match bs.find? (fun b => b.1 == i) with
        | some b => (e.byteAt b.2.1).getD 0
        | none => 0
      finishLoad n { w with src := 9 } bs (fun c => f (loadResult w.op get c)) s
    else
      let s := drainStores n s
      match linesMissing s n bs with
      | [] => readL1 n w bs f s
      | ls => awaitLines n false w ls s
  | none =>
    match linesMissing s n bs with
    | [] => readL1 n w bs f s
    | ls => awaitLines n false w ls s

/-! ## Atomic accesses (02.6) -/

/-- The new value an ATOM writes, none for a CAS that fails: op of Table 02-10, old value m, operand, compare value (R67, R692). -/
def atomNew {w : Nat} (op : Nat) (m x cmp : BitVec w) : Option (BitVec w) :=
  match op with
  | 0 => if m = cmp then some x else none
  | 1 => some x
  | 2 => some (m + x)
  | 3 => some (m &&& x)
  | 4 => some (m ||| x)
  | 5 => some (m ^^^ x)
  | 6 => some (minS m x)
  | 7 => some (maxS m x)
  | 8 => some (minU m x)
  | _ => some (maxU m x)

/-- The new value of an ATOM of `size` bytes, as a number. -/
def atomBytes (size op m x cmp : Nat) : Option (List Byte) :=
  if size = 4 then (atomNew op (BitVec.ofNat 32 m) (BitVec.ofNat 32 x) (BitVec.ofNat 32 cmp)).map fun v => leBytes 4 v.toNat
  else (atomNew op (w64 m) (w64 x) (w64 cmp)).map fun v => leBytes 8 v.toNat

/-- Whether the L1D holds a line and the L2 owns it. -/
def ownsL1 (s : State) (n line key : Nat) : Bool := ownsLine s n line key && (hitLine s (.l1d n) line key).isSome

/-- An ATOM whose line core `n` owns: read and write in one step (R67). -/
def atomWb (n : Nat) (w : Wait) (op rd : Nat) (operand : W64) (bs : List (Nat × Nat × TlbEnt)) (s : State) : State :=
  let key := keyOf bs
  match bs with
  | [] => s
  | b :: _ =>
    let s := drainStores n s
    let line := b.2.1 / 64
    if !ownsL1 s n line key then awaitLines n true w [(line, key)] s
    else match hitLine s (.l1d n) line key with
      | none => s
      | some l =>
        if l.poison then consumePoison n w b.2.1 key s
        else
          let off := b.2.1 % 64
          let m := lineNat l.data off w.op.size
          let s := match atomBytes w.op.size op m operand.toNat ((s.core n).getG rd).toNat with
            | some v => writeL1 n line (v.zipIdx.map fun e => (off + e.2, e.1)) s
            | none => s
          finishMem n (if w.src = 0 then { w with src := 1 } else w)
            (fun c => c.setG rd (extend w.op.size true (w64 m))) s

/-- An SC ends without a store: rd = 1 (R70). -/
def failSc (n : Nat) (w : Wait) (rd : Nat) (s : State) : State :=
  finishMem n w (fun c => { c.setG rd 1 with resv := none }) s

/-- An SC with its line resolved (R69, R70). -/
def scWb (n : Nat) (w : Wait) (rd : Nat) (bytes : List (Nat × Byte)) (bs : List (Nat × Nat × TlbEnt)) (s : State) : State :=
  let key := keyOf bs
  match bs with
  | [] => s
  | b :: _ =>
    let s := drainStores n s
    let line := b.2.1 / 64
    if (s.core n).resv ≠ some (line, key) then failSc n w rd s
    else if !ownsL1 s n line key then awaitLines n true w [(line, key)] s
    else
      let off := b.2.1 % 64
      finishMem n w (fun c => { c.setG rd 0 with resv := none })
        (writeL1 n line (bytes.map fun e => (off + e.1, e.2)) s)

/-! ## Cache maintenance (R86, R87, R200) -/

/-- The state of a line once its data is in memory. -/
def cleanSt : Moesi → Moesi
  | .M => .E
  | .O => .S
  | st => st

/-- DC.CLEAN of a line, at its home: the dirty copy goes to memory and every copy stays, clean; an owned line is shared by those
that hold it. -/
def cleanLine (line : Nat) (s : State) : State :=
  match homeTile s 0x02 line, cachedValue s line with
  | some t, some l =>
    let dirty := decide (l.st = .M ∨ l.st = .O)
    whole line (fun s =>
      let after := (List.range 144).foldl (fun s n =>
        modLine (.l1d n) line (fun d => { d with st := .S })
          (modLine (.l2 n) line (fun x => { x with data := l.data, poison := l.poison, st := cleanSt x.st }) s)) s
      let after := modLine (.l3 t) line (fun x => { x with st := .E, data := l.data, poison := l.poison }) after
      let after := match findDir after t line with
        | some (w, e) => if e.st = DirState.O then setDir t line w (some { e with st := DirState.S }) after else after
        | none => after
      let after := { after with homes := { after.homes with wbs := after.homes.wbs.filter fun w => w.line ≠ line } }
      shadowMsg t line s (if dirty then memStore line l.key l.data l.poison after else after)) s
  | _, _ => s

/-- DC.CLEANINV: the dirty copy goes to memory and no copy stays. DC.INV at H or F drops it. -/
def cleanInvLine (line : Nat) (keep : Bool) (s : State) : State :=
  let val := cachedValue s line
  whole line (fun s =>
    let s := invalidateAll line s
    match val with
    | some l => if keep && decide (l.st = .M ∨ l.st = .O) then memStore line l.key l.data l.poison s else s
    | none => s) s

/-- DC.CLEAN, DC.CLEANINV, DC.INV of a resolved line. -/
def dcWb (n : Nat) (w : Wait) (o : Nat) (bs : List (Nat × Nat × TlbEnt)) (s : State) : State :=
  match bs with
  | [] => s
  | b :: _ =>
    let s := drainStores n s
    let line := b.2.1 / 64
    let lossy := o = 2 ∧ ((s.core n).level = .H ∨ (s.core n).level = .F)
    finishMem n w id (if o = 0 then cleanLine line s else cleanInvLine line (!decide lossy) s)

/-! ## Device and non-cacheable accesses (R64, R587, R588) -/

/-- A request for `size` bytes at a physical address past the caches: the core waits for its answer. -/
def readDevice (n pa size key : Nat) (w : Wait) (s : State) : State :=
  let src := coreStop n
  let abort := fun (s : State) => raiseCause n w.op.cls ⟨0x18, 0, 0, false, w.op.va⟩ 0 s
  match devTarget s src pa key with
  | .reg stop off =>
    waitMem n w (request .RegRd (.core n) .ni src stop (off / 8 * 8) 0 (fun p => { p with arg := size }) s)
  | .io i => waitMem n w (request .RdDev (.core n) (.io i) src (ioStop i) pa 0 (fun p => { p with arg := size }) s)
  | .home t => waitMem n w (request .RdOnce (.core n) (.home t) src (tileStop t) (pa / 64) key id s)
  | .denied => abort (logKeyRefused src pa key s)
  | .nowhere => abort (logAbort src pa s)

/-- The stores a device store becomes: an SDP is two of 8 bytes in ascending order (R64). -/
def deviceStores (op : MemOp) (bytes : List (Nat × Byte)) (pa key : Nat) : List StoreEnt :=
  let mk := fun (lo k : Nat) => (⟨(bytes.filter fun b => decide (lo ≤ b.1) && decide (b.1 < lo + k)).map fun b => (pa + b.1, b.2),
    pa + lo, k, key, op.va, true⟩ : StoreEnt)
  if op.size = 16 then [mk 0 8, mk 8 8] else [mk 0 op.size]

/-- A store retires into the store queue. -/
def queueStores (n : Nat) (w : Wait) (es : List StoreEnt) (s : State) : State :=
  finishMem n w (fun c => { c with sq := c.sq ++ es }) s

/-- An access to device memory (R64, R68, R89). -/
def performDev (n : Nat) (w : Wait) (bs : List (Nat × Nat × TlbEnt)) (s : State) : State :=
  let k := match w.op.needs with | a :: _ => kindNum a | [] => 0
  let cause := fun code => (⟨code, k, 0, false, w.op.va⟩ : Cause)
  match bs with
  | [] => finishMem n w id s
  | b :: _ =>
    if w.op.va.toNat % w.op.size ≠ 0 then raiseCause n w.op.cls (cause 0x04) 0 s
    else if !w.op.devOk then raiseCause n w.op.cls (cause 0x05) 0 s
    else match w.op.kind with
      | .store bytes => queueStores n w (deviceStores w.op bytes b.2.1 b.2.2.key) s
      | _ => readDevice n b.2.1 (min w.op.size 8) b.2.2.key { w with phase := .dev none, src := 8 } (drainStores n s)

/-! ## The instruction -/

/-- A store's bytes at their physical addresses. -/
def storeBytes (bytes : List (Nat × Byte)) (bs : List (Nat × Nat × TlbEnt)) : List (Nat × Byte) :=
  bytes.filterMap fun b => (bs.find? fun r => r.1 == b.1).map fun r => (r.2.1, b.2)

/-- The entries a store to normal memory makes: one for each key ID its bytes lie under. -/
def storeEntries (op : MemOp) (bytes : List (Nat × Byte)) (bs : List (Nat × Nat × TlbEnt)) (nc : Bool) : List StoreEnt :=
  ((bs.map fun b => b.2.2.key).eraseDups).map fun k =>
    let part := bs.filter fun b => b.2.2.key == k
    ⟨storeBytes bytes part, (match part with | b :: _ => b.2.1 | [] => 0), op.size, k, op.va, nc⟩

/-- An instruction whose addresses have resolved (R64, R68, R96, R114). -/
def performAt (n : Nat) (w : Wait) (bs : List (Nat × Nat × TlbEnt)) (s : State) : State :=
  let dev := bs.any fun b => decide (b.2.2.mt = .device)
  let nc := bs.any fun b => decide (b.2.2.mt = .nonCacheable)
  let pa := match bs with | b :: _ => b.2.1 | [] => 0
  if dev then performDev n w bs s
  else match w.op.kind with
    | .store bytes => queueStores n w (storeEntries w.op bytes bs nc) s
    | .load _ _ =>
      if nc ∧ pa % 64 + w.op.size ≤ 64 then
        readDevice n pa w.op.size (keyOf bs) { w with phase := .dev none, src := 6 } (drainStores n s)
      else loadWb n w bs id true s
    | .loadPair _ | .loadVec _ _ => loadWb n w bs id true s
    | .lr _ => loadWb n w bs (fun c => { c with resv := some (pa / 64, keyOf bs) }) false (drainStores n s)
    | .atom op rd x => atomWb n w op.toNat rd x bs s
    | .sc rd bytes => scWb n w rd bytes bs s
    | .dc o => dcWb n w o bs s
    | .rand _ _ => s

/-- The TLB code of Table 16-4 of an entry, and the L1 DTLB filled from the L2 TLB (R152). -/
def tlbCode (e : TlbEnt) : Nat := if e.l1d then 1 else 2

/-- A translation fault of a memory instruction. An SC that would fail raises none (R70); one whose line still holds the
reservation raises it. -/
def memFault (n : Nat) (w : Wait) (f : XFault) (k : Access) (s : State) : State :=
  match w.op.kind with
  | .sc rd _ =>
    match translate s (coreCtx s n (s.core n).level) w.op.va.toNat .read with
    | .ok e =>
      if (s.core n).resv.any (fun r => r.1 == (e.pa + (w.op.va.toNat - e.va)) / 64 && r.2 == e.key) then
        raiseFault n 4 f k s
      else failSc n w rd s
    | .error _ => failSc n w rd s
  | _ => raiseFault n w.op.cls f k s

/-- A memory instruction of core `n`, or its next try once what it waited for has come. -/
def performMem (n : Nat) (w : Wait) (s : State) : State :=
  match resolve s n w.op with
  | .miss _ => waitMem n { w with phase := .walk } s
  | .bad f k => memFault n w f k s
  | .ok bs =>
    let w := if w.tlb ≠ 0 then w else match bs with | b :: _ => { w with tlb := tlbCode b.2.2 } | [] => w
    performAt n w bs (bs.foldl (fun s b => if b.2.2.l1d then s else tlbFillEnt n false b.2.2 s) s)

/-! ## Speculation (04.5) -/

/-- Whether a speculative load may complete at once in guarded mode: its page in a TLB, its lines in the L1D or L2, normal
write-back memory (Table 04-7). -/
def guardedReady (s : State) (n : Nat) (op : MemOp) : Bool :=
  match resolve s n op with
  | .ok bs => bs.all fun b => decide (b.2.2.mt = .writeBack) &&
      ((hitLine s (.l1d n) (b.2.1 / 64) b.2.2.key).isSome || (hitLine s (.l2 n) (b.2.1 / 64) b.2.2.key).isSome)
  | _ => false

/-- A wrong-path access of an unguarded core to one line of write-back memory (Table 04-7). -/
def wrongLine (n line key : Nat) (isStore strm : Bool) (s : State) : State :=
  if (hitLine s (.l1d n) line key).isSome then touchLine (.l1d n) line s
  else match hitLine s (.l2 n) line key with
    | some l => if isStore then s else fillL1 n false { l with strm } (touchLine (.l2 n) line s)
    | none =>
      let c := s.core n
      match devTarget s (coreStop n) (line * 64) key with
      | .home _ =>
        let mark := !(c.fills.any fun f => f.1 == line)
        let r := startFill n line key isStore strm s
        ergEvent n c 0x081 none 1 (r.2.modCore n fun c => if mark then { c with quiet := c.quiet ++ [(line, false)] } else c)
      | _ => s

/-- A wrong-path memory instruction: only the effects of Table 04-7, then it is discarded. -/
def wrongPath (n : Nat) (op : MemOp) (s : State) : State :=
  let c := s.core n
  let isStore := match op.kind with | .store _ => true | _ => false
  let done := fun s => discard n c { cls := op.cls, uops := op.uops } s
  if guarded c then
    done (if isStore || guardedReady s n op then s else ergEvent n c 0x082 none 1 s)
  else
    let s := match resolve s n op with
      | .miss va =>
        (match translate s (coreCtx s n c.level) va (if isStore then .write else .read) with
         | .ok e => tlbFillEnt n false e s
         | .error _ => s)
      | _ => s
    match resolve s n op with
    | .ok bs =>
      let s := bs.foldl (fun s b => if b.2.2.l1d then s else tlbFillEnt n false b.2.2 s) s
      if bs.all (fun b => decide (b.2.2.mt = .writeBack)) then
        let s := match op.kind, bs with
          | .load _ _, b :: _ => s.modCore n fun c => c.trainStride b.2.1 (keyOf bs)
          | _, _ => s
        done ((linesOf bs).foldl (fun s l => wrongLine n l.1 l.2 isStore op.s s) s)
      else done s
    | _ => done s

/-- A memory instruction of core `n` where it stands in the pipeline (R158 to R163). A store waits while the store queue is full
(Table 04-9). -/
def issueMem (n : Nat) (op : MemOp) (path : Path) (s : State) : State :=
  let w : Wait := ⟨op, .walk, 0, 0⟩
  let isStore := match op.kind with | .store _ => true | _ => false
  match path with
  | .wrongPath => wrongPath n op s
  | .speculative =>
    if isStore then (if 128 ≤ (s.core n).sq.length then s else performMem n w s)
    else if guarded (s.core n) && !guardedReady s n op then waitMem n { w with phase := .held } s
    else performMem n w s
  | .retired => if isStore && decide (128 ≤ (s.core n).sq.length) then s else performMem n w s

end Sys2Proof.Machine
end

