-- ==== Sys2Proof/Machine/Atomic.lean ====
section
/-! DEFINITION. Atomic and ordered accesses and reservations of main cores and of Coxswain pairs (02.6, 02.11). -/

namespace Sys2Proof.Machine

/-- The access size of func[7:6] (Tables 02-10, 02-11). -/
def ordSize (sz : BitVec 2) : Nat := 2 ^ sz.toNat

/-- A misaligned access at `va` (R68). -/
def misaligned (kind : Nat) (va : W64) : Cause := ⟨0x04, kind, 0, false, va⟩

/-- ATOM on a pair: 32 bits, in one step, on the TCM or on the latest value of memory (Table 02-15). -/
def cxAtom (k op : Nat) (rd rs1 rs2 : RegNo) (s : State) : State :=
  let p := s.pair k
  let addr := (p.getR rs1).toNat
  let hs := cxBytes s k .write addr 4
  let hr := cxBytes s k .read addr 4
  if addr % 4 ≠ 0 then cxTrap k 4 (p.getR rs1) s
  else match cxAccessTrap addr 4 hs, cxAccessTrap addr 4 hr with
    | some e, _ => cxTrap k e.1 (BitVec.ofNat 32 e.2) s
    | none, some e => cxTrap k e.1 (BitVec.ofNat 32 e.2) s
    | none, none =>
      let r := cxPeek s k hs
      if r.2 then cxPoison k addr s
      else
        let m := BitVec.ofNat 32 (leNat r.1)
        let s := match atomNew op m (p.getR rs2) (p.getR rd) with
          | some v => cxPoke k hs (leBytes 4 v.toNat) s
          | none => s
        cxResult k rd m s

/-- An ATOM (R67, R68, R692): ILL for sizes 0b00 and 0b01, and for 0b11 on a pair; then Misaligned access. -/
def opAtom (op : Nat) (a : Agent) (rd rs1 rs2 : RegNo) (ord sz : BitVec 2) (s : State) :
    Host.Outcome State Fault Refusal :=
  answer s (match a with
    | .core n => onCore n (fun s =>
        let c := s.core n
        let va := c.getG rs1.toNat
        if sz.toNat < 2 then raise n 4 0x01 s
        else if va.toNat % ordSize sz ≠ 0 then raiseCause n 4 (misaligned 1 va) 0 s
        else issueMem n ⟨.atom (BitVec.ofNat 4 op) rd.toNat (c.getG rs2.toNat), va, ordSize sz, false, false, ord.getLsbD 0⟩
          .retired s) s
    | .cx k => onPair k [rd, rs1, rs2] [rd] (fun s => if sz ≠ 2 then cxTrap k 1 0 s else cxAtom k op rd rs1 rs2 s) s)

/-- CAS (R67). -/
def execCas (a : Agent) (rd rs1 rs2 : RegNo) (ord sz : BitVec 2) (s : State) :
    Host.Outcome State Fault Refusal :=
  opAtom 0 a rd rs1 rs2 ord sz s

/-- SWP (R67). -/
def execSwp (a : Agent) (rd rs1 rs2 : RegNo) (ord sz : BitVec 2) (s : State) :
    Host.Outcome State Fault Refusal :=
  opAtom 1 a rd rs1 rs2 ord sz s

/-- LDADD (R67). -/
def execLdadd (a : Agent) (rd rs1 rs2 : RegNo) (ord sz : BitVec 2) (s : State) :
    Host.Outcome State Fault Refusal :=
  opAtom 2 a rd rs1 rs2 ord sz s

/-- LDAND (R67). -/
def execLdand (a : Agent) (rd rs1 rs2 : RegNo) (ord sz : BitVec 2) (s : State) :
    Host.Outcome State Fault Refusal :=
  opAtom 3 a rd rs1 rs2 ord sz s

/-- LDOR (R67). -/
def execLdor (a : Agent) (rd rs1 rs2 : RegNo) (ord sz : BitVec 2) (s : State) :
    Host.Outcome State Fault Refusal :=
  opAtom 4 a rd rs1 rs2 ord sz s

/-- LDXOR (R67). -/
def execLdxor (a : Agent) (rd rs1 rs2 : RegNo) (ord sz : BitVec 2) (s : State) :
    Host.Outcome State Fault Refusal :=
  opAtom 5 a rd rs1 rs2 ord sz s

/-- LDMIN (R67). -/
def execLdmin (a : Agent) (rd rs1 rs2 : RegNo) (ord sz : BitVec 2) (s : State) :
    Host.Outcome State Fault Refusal :=
  opAtom 6 a rd rs1 rs2 ord sz s

/-- LDMAX (R67). -/
def execLdmax (a : Agent) (rd rs1 rs2 : RegNo) (ord sz : BitVec 2) (s : State) :
    Host.Outcome State Fault Refusal :=
  opAtom 7 a rd rs1 rs2 ord sz s

/-- LDMINU (R67). -/
def execLdminu (a : Agent) (rd rs1 rs2 : RegNo) (ord sz : BitVec 2) (s : State) :
    Host.Outcome State Fault Refusal :=
  opAtom 8 a rd rs1 rs2 ord sz s

/-- LDMAXU (R67). -/
def execLdmaxu (a : Agent) (rd rs1 rs2 : RegNo) (ord sz : BitVec 2) (s : State) :
    Host.Outcome State Fault Refusal :=
  opAtom 9 a rd rs1 rs2 ord sz s

/-- LR (R69): a load that sets a reservation; size 32 or 64 bits. -/
def execLr (a : Agent) (rd rs1 : RegNo) (ord sz : BitVec 2) (s : State) : Host.Outcome State Fault Refusal :=
  answer s (match a with
    | .core n => onCore n (fun s =>
        let va := (s.core n).getG rs1.toNat
        if sz.toNat < 2 then raise n 4 0x01 s
        else if va.toNat % ordSize sz ≠ 0 then raiseCause n 4 (misaligned 0 va) 0 s
        else issueMem n ⟨.lr rd.toNat, va, ordSize sz, false, false, ord.getLsbD 0⟩ .retired
          (s.modCore n fun c => { c with resv := none })) s
    | .cx k => onPair k [rs1] [rd] (fun s =>
        let p := s.pair k
        let addr := (p.getR rs1).toNat
        let hs := cxBytes s k .read addr 4
        if sz ≠ 2 then cxTrap k 1 0 s
        else if addr % 4 ≠ 0 then cxTrap k 4 (p.getR rs1) s
        else match cxAccessTrap addr 4 hs with
          | some e => cxTrap k e.1 (BitVec.ofNat 32 e.2) s
          | none =>
            let r := cxPeek s k hs
            if r.2 then cxPoison k addr s
            else (cxResult k rd (BitVec.ofNat 32 (leNat r.1)) s).modPair k fun p =>
              { p with resv := hs.head?.map cxLine }) s)

/-- SC (R69, R70): stores and gives 0 when the reservation holds for the line, else gives 1. -/
def execSc (a : Agent) (rd rs1 rs2 : RegNo) (ord sz : BitVec 2) (s : State) : Host.Outcome State Fault Refusal :=
  answer s (match a with
    | .core n => onCore n (fun s =>
        let c := s.core n
        let va := c.getG rs1.toNat
        let op : MemOp := ⟨.sc rd.toNat (byteList (ordSize sz) (c.getG rs2.toNat).toNat), va, ordSize sz, false, false,
          ord.getLsbD 0⟩
        if sz.toNat < 2 then raise n 4 0x01 s
        else if va.toNat % ordSize sz ≠ 0 then raiseCause n 4 (misaligned 1 va) 0 s
        else if c.resv = none then failSc n ⟨op, .walk, 0, 0⟩ rd.toNat s
        else issueMem n op .retired s) s
    | .cx k => onPair k [rs1, rs2] [rd] (fun s =>
        let p := s.pair k
        let addr := (p.getR rs1).toNat
        let hs := cxBytes s k .write addr 4
        if sz ≠ 2 then cxTrap k 1 0 s
        else if addr % 4 ≠ 0 then cxTrap k 4 (p.getR rs1) s
        else
          let fail := (cxResult k rd 1 s).modPair k fun p => { p with resv := none }
          if p.resv = none ∨ p.resv ≠ hs.head?.map cxLine then fail
          else match cxAccessTrap addr 4 hs with
            | some e => cxTrap k e.1 (BitVec.ofNat 32 e.2) s
            | none =>
              (cxResult k rd 0 (cxPoke k hs (leBytes 4 (p.getR rs2).toNat) s)).modPair k fun p => { p with resv := none }) s)

/-- LDA (R72, R692): a load-acquire of any size, sign-extended; never device memory. -/
def execLda (a : Agent) (rd rs1 : RegNo) (sz : BitVec 2) (s : State) : Host.Outcome State Fault Refusal :=
  answer s (match a with
    | .core n => onCore n (fun s =>
        let va := (s.core n).getG rs1.toNat
        if va.toNat % ordSize sz ≠ 0 then raiseCause n 4 (misaligned 0 va) 0 s
        else issueMem n ⟨.load rd.toNat true, va, ordSize sz, false, false, true⟩ .retired s) s
    | .cx k => onPair k [rs1] [rd] (fun s =>
        let addr := ((s.pair k).getR rs1).toNat
        if sz = 3 then cxTrap k 1 0 s
        else if addr % ordSize sz ≠ 0 then cxTrap k 4 ((s.pair k).getR rs1) s
        else cxLoad k rd addr (ordSize sz) true [] s) s)

/-- STL (R72, R692): a store-release of the low bytes of rs2. -/
def execStl (a : Agent) (rs1 rs2 : RegNo) (sz : BitVec 2) (s : State) : Host.Outcome State Fault Refusal :=
  answer s (match a with
    | .core n => onCore n (fun s =>
        let c := s.core n
        let va := c.getG rs1.toNat
        if va.toNat % ordSize sz ≠ 0 then raiseCause n 4 (misaligned 1 va) 0 s
        else issueMem n ⟨.store (byteList (ordSize sz) (c.getG rs2.toNat).toNat), va, ordSize sz, false, false, false⟩
          .retired s) s
    | .cx k => onPair k [rs1, rs2] [] (fun s =>
        let p := s.pair k
        let addr := (p.getR rs1).toNat
        if sz = 3 then cxTrap k 1 0 s
        else if addr % ordSize sz ≠ 0 then cxTrap k 4 (p.getR rs1) s
        else cxStore k addr (leBytes (ordSize sz) (p.getR rs2).toNat) s) s)

end Sys2Proof.Machine
end

