-- ==== Sys2Proof/Machine/MemStop.lean ====
section
/-! DEFINITION. Requests that reach a memory stop: places in DRAM, queues, merging and mirroring, and the ownership shadow (05.10,
07.2, 07.3, 07.8). -/

namespace Sys2Proof.Machine

/-! ## Places (R281, R302) -/

/-- Banks of a rank in use: 31 with bank sparing, else 32. -/
def banksIn (s : State) (mc : Nat) : Nat := if bit (s.reg .MC_RAS_CFG mc) 32 then 31 else 32

/-- The capacity a logical rank presents, in bytes (R281). MC_DIMM gives the usable capacity in whole GiB; with sparing the physical
one is taken as the whole GiB of which 31/32, rounded down, is usable (log entry 15). -/
def rankBytes (s : State) (mc : Nat) : Nat :=
  let u := s.regF .MC_DIMM 47 32 mc
  let phys := if banksIn s mc = 31 then (32 * u + 30) / 31 else u
  phys * 2 ^ 30 / (s.regF .MC_DIMM 23 20 mc + 1) * banksIn s mc / 32

/-- Where a line of a channel, by its channel-local number, lies (Table 07-6). -/
def placeOf (s : State) (mc loc : Nat) : Place3 :=
  let ca := loc * 64
  let p := rankBytes s mc
  let k := (if p = 0 then ca else ca % p) / 16384
  let b := banksIn s mc
  { sub := loc % 2, rank := if p = 0 then 0 else ca / p, bank := k % b, row := k / b, col := loc / 2 % 128 }

/-- The key of a bank in `MemStop.banks`. -/
def bankKey (rank sub bank : Nat) : Nat := rank * 128 + sub * 64 + bank

/-- The bank that serves a place: the spare once the copy of its bank has ended (R303). -/
def servingBank (s : State) (mc : Nat) (p : Place3) : Nat :=
  match NMap.find? (s.mc mc).spared (p.rank * 2 + p.sub) with
  | some (b, true) => bankKey p.rank p.sub (if b = p.bank then 31 else p.bank)
  | _ => bankKey p.rank p.sub p.bank

/-- A bank of a memory stop. -/
def bankAt (s : State) (mc k : Nat) : Bank := NMap.get Bank.cold (s.mc mc).banks k
def modBank (mc k : Nat) (f : Bank → Bank) (s : State) : State :=
  s.modMc mc fun m => { m with banks := NMap.set Bank.cold m.banks k (f (NMap.get Bank.cold m.banks k)) }

/-- The channel-local number of a line at a memory stop that holds it, as primary or as mirror partner. -/
def localLine (s : State) (mc line : Nat) : Option Nat :=
  match memOf s (mcStop mc) line with
  | some (ch, loc) =>
    if ch = mc ∨ (ch + 1 = mc ∧ isMirrored s (mcStop mc) line) then some loc else none
  | none => none

/-! ## Queues (R282, R283, R285) -/

/-- The requester port of the agent behind a request (R282, R289). -/
def unitPort : Unit → Option Nat
  | .core n => some (n / 2)
  | .home t => some t
  | .io n => some (72 + n)
  | .sweep _ => some 84
  | .pair _ | .pairCache _ _ | .slot _ _ | .debug => some 85
  | _ => none

/-- The agent that a port stands for, as the sender of a request with no packet on its way. -/
def portUnit (mc who : Nat) : Nat × Unit :=
  if who < 72 then (tileStop who, .home who)
  else if who < 84 then (ioStop (who - 72), .io (who - 72))
  else if who = 84 then (mcStop mc, .sweep mc)
  else (0x02, .debug)

/-- The port of a packet: that of the agent its answer is for, or the one the command names. -/
def packetPort (p : Packet) (who : Nat) : Nat :=
  match p.fwd with
  | some (_, _, u) => (unitPort u).getD who
  | none => if decide (p.op = .MemWr) then (unitPort p.from_).getD who else who

/-- The entries of one queue of a subchannel. -/
def queueOf (s : State) (mc sub : Nat) (write : Bool) : List MemEnt :=
  (s.mc mc).ents.filter fun e => e.write == write && e.ca % 2 == sub

/-- R283: a stop with a full queue takes no request. -/
def queuesFull (s : State) (mc : Nat) : Bool :=
  [0, 1].any fun sub => decide (128 ≤ (queueOf s mc sub false).length ∨ 96 ≤ (queueOf s mc sub true).length)

/-- The high and low watermarks in force (Table 07-7). -/
def highMark (s : State) (mc : Nat) : Nat := min 96 (s.regF .MC_SCHED 6 0 mc)
def lowMark (s : State) (mc : Nat) : Nat :=
  let l := s.regF .MC_SCHED 14 8 mc
  if highMark s mc ≤ l then highMark s mc - 1 else l

/-- The drain flag of a subchannel follows its count of write entries. -/
def setDrain (mc sub : Nat) (s : State) : State :=
  let n := (queueOf s mc sub true).length
  if highMark s mc ≤ n then s.modMc mc fun m => { m with drain := m.drain ||| (1#2 <<< sub) }
  else if n ≤ lowMark s mc then s.modMc mc fun m => { m with drain := m.drain &&& ~~~(1#2 <<< sub) }
  else s

/-- A request takes an entry; in package sleep it ends the stop's self-refresh (R518). -/
def addEntry (mc : Nat) (write : Bool) (loc port mirror : Nat) (p : Packet) (s : State) : State :=
  let asleep := [2, 3].contains (s.regF .PWR_PKG_STATUS 3 0)
  setDrain mc (loc % 2) (s.modMc mc fun m =>
    { m with selfRefresh := m.selfRefresh && !asleep, nextId := m.nextId + 1
             ents := m.ents ++ [{ id := m.nextId, write, line := p.addr, ca := loc, key := p.key, data := p.data, poison := p.poison,
                                  fin := p.fin, port, urg := if p.fin then 3 else 0, ageNs := 0, passed := 0, issued := false,
                                  tries := 0, mirror, req := p }] })

/-- The data, or the abort, of a read goes to the requester that the home named, or to the sender (R189). -/
def replyRead (mc : Nat) (p : Packet) (d : Line) (poison : Bool) (status : Nat) (s : State) : State :=
  let r := p.fwd.getD (p.src, p.tid, p.from_)
  let op : Op := if status ≠ 0 then .DatRd else if p.fwd.isSome then grantOp p.arg else .DatRd
  send { mkPacket op (mcStop mc) r.1 r.2.1 p.addr p.key (.mc mc) r.2.2 with data := d, poison, status, arg := 6 } s

/-- A read reaches the stop (R285, R299): a stop with a failed command path answers with status 4; a write entry of the line gives
its data; else the read takes an entry. -/
def takeRead (mc who : Nat) (p : Packet) (s : State) : State :=
  match localLine s mc p.addr with
  | none => s
  | some loc =>
    if (s.mc mc).dead then replyRead mc p 0 true 4 s
    else match writeEntry s mc p.addr with
      | some e =>
        let r := if e.key = p.key then (e.data, e.poison) else recode s p.addr e.key p.key e.data e.poison
        replyRead mc p r.1 r.2 0 s
      | none => addEntry mc false loc (packetPort p who) 0 p s

/-- A write that the partner of a mirrored line owed the primary has been issued or merged (R306). -/
def partnerDone (mc line : Nat) (s : State) : State :=
  match memOf s (mcStop mc) line with
  | some (ch, _) =>
    if ch = mc then s
    else match (s.mc ch).ents.find? fun e => e.write && e.line == line && decide (0 < e.mirror) with
      | none => s
      | some e =>
        let e' := { e with mirror := e.mirror - 1 }
        let s := s.modMc ch fun m => { m with ents :=
          if e'.mirror = 0 ∧ e'.issued then m.ents.erase e else m.ents.map fun x => if x.id = e.id then e' else x }
        setDrain ch (e.ca % 2) s
  | none => s

/-- Whether the writes of a line go to a partner as well (R306, R309). -/
def forwards (s : State) (mc line : Nat) : Bool :=
  match memOf s (mcStop mc) line with
  | some (ch, _) => ch == mc && isMirrored s (mcStop mc) line && (s.reg .AVAIL_MEM).getLsbD ch &&
      (s.reg .AVAIL_MEM).getLsbD (ch + 1)
  | none => false

/-- A write reaches the stop (R285, R299, R306): it merges into a write entry of its line, whose data it replaces, or takes an
entry; the primary of a mirrored line sends it on to its partner. -/
def takeWrite (mc who : Nat) (p : Packet) (s : State) : State :=
  match localLine s mc p.addr with
  | none => s
  | some loc =>
    if (s.mc mc).dead then s
    else
      let fwd := forwards s mc p.addr
      let s := if fwd then
          send { mkPacket .MemWr (mcStop mc) (mcStop (mc + 1)) 0 p.addr p.key (.mc mc) (.mc (mc + 1)) with
                 data := p.data, poison := p.poison, fin := p.fin } s
        else s
      match writeEntry s mc p.addr with
      | some e =>
        partnerDone mc p.addr (s.modMc mc fun m => { m with ents := m.ents.map fun x =>
          if x.id = e.id then { x with data := p.data, key := p.key, poison := p.poison, fin := x.fin || p.fin,
                                       urg := if p.fin then 3 else x.urg, mirror := x.mirror + fwd.toNat } else x })
      | none => addEntry mc true loc (packetPort p who) fwd.toNat p s

/-! ## The commands -/

/-- MEMRD (R282 to R285): `who` is the requester port of a read that no packet on its way stands for. -/
def execMemrd (mc line key who : Nat) (s : State) : Host.Outcome State Fault Refusal :=
  let u := portUnit mc who
  answer s (if decide (16 ≤ mc) || decide (86 ≤ who) || (localLine s mc line).isNone then s
    else arriveOrNew (fun p => p.op == .MemRd && decide (p.to_ = .mc mc) && p.addr == line && p.key == key && !queuesFull s mc)
      (request .MemRd u.2 (.mc mc) u.1 (mcStop mc) line key id) (takeRead mc who) s)

/-- MEMWR (R282 to R285, R296, R306). -/
def execMemwr (mc line key : Nat) (data : Line) (poison fin : Bool) (who : Nat) (s : State) : Host.Outcome State Fault Refusal :=
  let u := portUnit mc who
  answer s (if decide (16 ≤ mc) || decide (86 ≤ who) || (localLine s mc line).isNone then s
    else arriveOrNew (fun p => p.op == .MemWr && decide (p.to_ = .mc mc) && p.addr == line && p.key == key && p.data == data &&
        p.poison == poison && p.fin == fin && !queuesFull s mc)
      (send { mkPacket .MemWr u.1 (mcStop mc) 0 line key u.2 (.mc mc) with data, poison, fin }) (takeWrite mc who) s)

/-- A shadow message of a line reaches its memory stop. -/
def shadowArrives (op : Op) (mc line : Nat) (f : State → State) (s : State) : State :=
  arriveResp (fun p => p.op == op && decide (p.to_ = .mc mc) && p.addr == line) (fun _ s => f s) s

/-- SHINC (R219). -/
def execShinc (mc line : Nat) (s : State) : Host.Outcome State Fault Refusal :=
  answer s (shadowArrives .ShInc mc line (fun s =>
    let t := shadowInc mc line s
    if shadowAt s mc line < 15 ∧ shadowAt t mc line = 15 then uncEvent (.mc mc) 0x205 [2] 1 0 t else t) s)

/-- SHDEC (R219 to R221): after the write of dirty data that it follows has been accepted. -/
def execShdec (mc line : Nat) (s : State) : Host.Outcome State Fault Refusal :=
  answer s (if s.fab.net.any (fun p => p.op == .MemWr && p.addr == line) then s
    else shadowArrives .ShDec mc line (shadowDec mc line) s)

end Sys2Proof.Machine
end

