-- ==== Sys2Proof/Machine/Dram.lean ====
section
/-! DEFINITION. Command slots of a subchannel, refresh, row-disturbance defence, error correction, scrubbing, sparing and repair (07.3
to 07.8). -/

namespace Sys2Proof.Machine

/-! ## Records of a memory stop (R297, R593, Table 14-8) -/

/-- The region that holds a channel-local line of a channel, and whether the channel is its mirror partner. -/
def regionOf (s : State) (mc loc : Nat) : Option (Nat × Bool) :=
  (List.range 8).findSome? fun i =>
    let a := s.reg .SAM_RADDR 0 i
    let cfg := s.reg .SAM_RCFG 0 i
    let cs := chanList cfg
    let lo := fld cfg 47 32 * 2 ^ 30
    let hi := lo + (fld a 53 32 - fld a 21 0) * 2 ^ 30 / max cs.length 1
    let here := bit a 63 && decide (lo ≤ loc * 64) && decide (loc * 64 < hi)
    if here && cs.contains mc then some (i, false)
    else if here && bit cfg 63 && decide (1 ≤ mc) && cs.contains (mc - 1) then some (i, true)
    else none

/-- The line number of a channel-local line: R278 read backwards. -/
def lineAt (s : State) (mc loc : Nat) : Option Nat :=
  (regionOf s mc loc).map fun r =>
    let cfg := s.reg .SAM_RCFG 0 r.1
    let cs := chanList cfg
    let n := max cs.length 1
    let G := granule cfg
    let a := loc * 64 - fld cfg 47 32 * 2 ^ 30
    let q := a / G
    let h := (q ^^^ (q >>> 8) ^^^ (q >>> 16) ^^^ (q >>> 24)) % 256
    let p := cs.findIdx fun c => c == if r.2 then mc - 1 else mc
    let g := if bit cfg 62 then (p + (n - h % n)) % n else p
    (fld (s.reg .SAM_RADDR 0 r.1) 21 0 * 2 ^ 30 + (q * n + g) * G + a % G) / 64

/-- The partition that owns the page of a line under a key ID (R599). -/
def lineOwner (s : State) (line key : Nat) : Option Nat :=
  if key = 0 ∨ potLimit s = 0 ∨ potLimit s ≤ line * 64 then none
  else
    let e := potEntry s (line / 64)
    if !e.2.2 ∧ potState e.1 = 1 then some (potOwner e.1) else none

/-- A record of a memory stop about a channel-local line read under a key ID. -/
def dramErr (s : State) (mc : Nat) (cls : ErrClass) (type dev loc key req : Nat) : ErrRec :=
  let p := placeOf s mc loc
  let line := (lineAt s mc loc).getD 0
  let own := lineOwner s line key
  { mkRec cls (mcStop mc) 0x30 type (p.rank * 2 ^ 12 + p.bank * 2 ^ 7 + p.sub * 2 ^ 6 + dev % 16) with
    addr := (lineAt s mc loc).map fun l => errAddr key (l * 64)
    misc := some (w64 (own.getD 0 % 2 ^ 16 * 2 ^ 48 + req % 256 * 2 ^ 40 + p.row % 2 ^ 40))
    secret := own.isSome }

/-- A line of DRAM is written as poison (R296, R297). -/
def poisonLine (mc loc : Nat) (s : State) : State :=
  let l := cellLine mc loc
  { s with lmeta := NMap.set LMeta.plain s.lmeta l { NMap.get LMeta.plain s.lmeta l with poison := true } }

/-- The content of a line of one channel, as its devices hold it, replaces that of another (mirror repair). -/
def copyLine (src dst loc : Nat) (s : State) : State :=
  let a := cellLine src loc
  let b := cellLine dst loc
  { s with dram := writeCells s.dram (b * 64) (lineBytes (dramLine s a)),
           lmeta := NMap.set LMeta.plain s.lmeta b (NMap.get LMeta.plain s.lmeta a) }

/-! ## Sparing (R302, R303) -/

/-- 24 hours of the timebase, in µs. -/
def dayUs : Nat := 86400000000

/-- A corrected error of a bank is counted; at MC_RAS_CFG.bank_thr within 24 hours its sparing copy starts, or the want of a
spare is logged once (R302, R303). -/
def countBank (mc loc : Nat) (s : State) : State :=
  let p := placeOf s mc loc
  let k := bankKey p.rank p.sub p.bank
  let s := modBank mc k (fun b => { b with ce := (b.ce ++ [s.timeUs]).filter fun t => decide (s.timeUs < t + dayUs) }) s
  let sp := p.rank * 2 + p.sub
  if banksIn s mc ≠ 31 ∨ (bankAt s mc k).ce.length < s.regF .MC_RAS_CFG 31 24 mc ∨ s.regF .MC_RAS_CFG 31 24 mc = 0 then s
  else match NMap.find? (s.mc mc).spared sp with
    | none =>
      record (.mc mc) (dramErr s mc .corrected 0x0C 0 loc 0 (mcStop mc))
        (s.modMc mc fun m => { m with spared := NMap.put m.spared sp (p.bank, false) })
    | some (b, _) =>
      if b = p.bank ∨ (s.mc mc).exhausted.contains k then s
      else record (.mc mc) (dramErr s mc .corrected 0x0D 0 loc 0 (mcStop mc))
        (s.modMc mc fun m => { m with exhausted := m.exhausted ++ [k] })

/-- A corrected error of a line: it is logged and counted. -/
def logCorrected (mc loc key req dev : Nat) (s : State) : State :=
  countBank mc loc (record (.mc mc) (dramErr s mc .corrected 0x01 dev loc key req) s)

/-! ## Commands to the devices (R286, R287, R292 to R294) -/

/-- Activations of a row that queue a DRFM (Table 07-9). -/
def rhThreshold (s : State) (mc : Nat) : Nat := max 64 (s.regF .MC_RH_CFG 15 0 mc)

/-- R292: the count of an activation, in the entry of its row, a free one or the lowest. The eviction, if any, is told apart. -/
def countRow (t : List (Nat × Nat)) (row : Nat) : List (Nat × Nat) × Bool :=
  match t.findIdx? fun e => e.1 == row with
  | some i => (t.set i (row, (t.getD i (row, 0)).2 + 1), false)
  | none =>
    if t.length < 16 then (t ++ [(row, 1)], false)
    else
      let m := t.foldl (fun a e => min a e.2) (t.headD (0, 0)).2
      let i := t.findIdx fun e => e.2 == m
      (t.set i (row, m + 1), true)

/-- A row is opened: its activation is counted, and at the threshold a DRFM is queued and the count cleared. -/
def activate (mc k row : Nat) (s : State) : State :=
  let thr := rhThreshold s mc
  let r := countRow (bankAt s mc k).table row
  let full := r.1.any fun e => e.1 == row && decide (thr ≤ e.2)
  let s := modBank mc k (fun b => { b with
    openRow := some row
    table := if full then r.1.map (fun e => if e.1 = row then (row, 0) else e) else r.1
    drfm := if full then b.drfm ++ [row] else b.drfm }) s
  if r.2 then uncEvent (.mc mc) 0x203 [] 1 0 (s.modMc mc fun m => { m with evictions := m.evictions + 1 }) else s

/-- The case of a request in the CAS events (Table 16-8): CPU, I/O, Sweep, Finish. -/
def casCase (e : MemEnt) : Nat := if e.fin then 3 else if e.port = 84 then 2 else if 72 ≤ e.port ∧ e.port < 84 then 1 else 0

/-- A write command goes to DRAM: the line is encrypted and stored, in both copies of a bank that is being spared as well
(R303, R311), and counted in Finish (R472); the entry is freed when its partner has issued too (R286, R306). -/
def issueWrite (mc : Nat) (e : MemEnt) (s : State) : State :=
  let inj := injArmed s (.mc mc) 0x30 [3] (e.line * 64)
  let s := if inj then record (.mc mc) (dramErr s mc .deferred 0x02 0 e.ca e.key e.req.src) s else s
  let e := { e with poison := e.poison || inj }
  let s := dramWrite mc e.ca e.line e.key e.data e.poison s
  let s := if e.fin then
      { s with fin := { s.fin with lines := NMap.set 0 s.fin.lines mc (NMap.get 0 s.fin.lines mc + 1) } }
    else s
  let left := fun (es : List MemEnt) =>
    if e.mirror = 0 then (es.filter fun x => x.id != e.id) else es.map fun x => if x.id = e.id then { x with issued := true } else x
  let s := s.modMc mc fun m => { m with ents := left m.ents }
  partnerDone mc e.line (setDrain mc (e.ca % 2) (uncEvent (.mc mc) 0x201 [casCase e] 1 e.key s))

/-- The next command of a picked request: precharge, activate, or its read or write. -/
def issueNext (mc : Nat) (e : MemEnt) (s : State) : State :=
  let p := placeOf s mc e.ca
  let k := servingBank s mc p
  match (bankAt s mc k).openRow with
  | none => activate mc k p.row s
  | some r =>
    if r ≠ p.row then modBank mc k (fun b => { b with openRow := none }) s
    else if e.write then issueWrite mc e s
    else uncEvent (.mc mc) 0x200 [casCase e] 1 e.key
      (s.modMc mc fun m => { m with ents := m.ents.map fun x => if x.id = e.id then { x with issued := true } else x })

/-! ## The choice of R287 -/

/-- The entries of a subchannel that still wait for their command, oldest first; commands name them by position. -/
def waiting (s : State) (mc sub : Nat) : List MemEnt := (s.mc mc).ents.filter fun e => e.ca % 2 == sub && !e.issued

/-- Whether a request is CPU class (R282). -/
def MemEnt.cpu (e : MemEnt) : Bool := !e.fin && (decide (e.port < 72) || e.port == 85)

/-- Whether a request would hit the open row of its bank. -/
def rowHit (s : State) (mc : Nat) (e : MemEnt) : Bool :=
  let p := placeOf s mc e.ca
  (bankAt s mc (servingBank s mc p)).openRow == some p.row

/-- Whether the next command of a request may be issued: its bank is not held and takes an activation (R294, R304). -/
def mayIssue (s : State) (mc : Nat) (e : MemEnt) : Bool :=
  let b := bankAt s mc (servingBank s mc (placeOf s mc e.ca))
  !b.hold && !(b.openRow.isNone && decide (2 ≤ b.drfm.length))

/-- The picked request of CPU class, and the oldest row miss when a hit passes it. -/
def pickCpu (s : State) (mc : Nat) (c : List MemEnt) : Option (MemEnt × Option Nat) :=
  match c.find? (rowHit s mc), c.find? (fun e => !rowHit s mc e) with
  | some h, some m =>
    if m.passed < 4 then some (h, if m.id < h.id then some m.id else none) else c.head?.map fun e => (e, none)
  | some h, none => some (h, none)
  | none, _ => c.head?.map fun e => (e, none)

/-- The picked request of service class. -/
def pickService (s : State) (mc : Nat) (c : List MemEnt) : Option MemEnt :=
  let lim := max 100 (s.regF .MC_SCHED 47 32 mc)
  match c.find? fun e => decide (lim ≤ e.ageNs) with
  | some e => some e
  | none =>
    match c.find? MemEnt.fin with
    | some e => some e
    | none =>
      match c.find? fun e => e.port != 84 with
      | some e => some e
      | none => c.head?

/-- What the procedure of R287 picks, the row miss that it passes, and whether the wheel advances. CPU class owns the first
cpu_share positions of the wheel (log entry 16). -/
def choose (s : State) (mc sub : Nat) (blocked : List Nat) : Option (MemEnt × Option Nat × Bool) :=
  let c := ((waiting s mc sub).zipIdx.filter fun e => !blocked.contains e.2 && mayIssue s mc e.1).map Prod.fst
  let top := c.foldl (fun m e => max m e.urg) 0
  let c := c.filter fun e => e.urg == top
  let drain := (s.mc mc).drain.getLsbD sub || s.fab.finishLevel
  let ws := c.filter fun e => e.write
  let rs := c.filter fun e => !e.write
  let c := if drain then (if ws = [] then rs else ws) else if rs = [] then ws else rs
  let cpus := c.filter MemEnt.cpu
  let svcs := c.filter fun e => !e.cpu
  let both := !cpus.isEmpty && !svcs.isEmpty
  let cpuTurn := decide ((s.mc mc).wheel < s.regF .MC_SCHED 26 24 mc)
  if (if both then cpuTurn else svcs.isEmpty) then (pickCpu s mc cpus).map fun r => (r.1, r.2, both)
  else (pickService s mc svcs).map fun e => (e, none, both)

/-- The oldest pending DRFM of a subchannel: the lowest bank that has one. -/
def pendingDrfm (s : State) (mc sub : Nat) : Option Nat :=
  (List.find? (fun (e : Nat × Bank) => e.1 / 64 % 2 == sub && !e.2.drfm.isEmpty) (s.mc mc).banks).map Prod.fst

/-- DRAM_COMMAND_ISSUE (R287): one command slot. `mustRef` says that a due refresh can be postponed no longer; `blocked` lists,
by position among the waiting requests of the subchannel, those whose next command the DDR5 timing forbids in this slot. -/
def execDramCommandIssue (mc sub : Nat) (mustRef : Bool) (blocked : List Nat) (s : State) : Host.Outcome State Fault Refusal :=
  let m := s.mc mc
  answer s (if decide (16 ≤ mc) || decide (2 ≤ sub) || m.dead || m.selfRefresh then s
    else if mustRef && m.refreshDue.getLsbD sub then
      s.setMc mc { m with refreshDue := m.refreshDue &&& ~~~(1#2 <<< sub) }
    else match pendingDrfm s mc sub with
      | some k => uncEvent (.mc mc) 0x204 [] 1 0 (modBank mc k (fun b => { b with drfm := b.drfm.drop 1 }) s)
      | none =>
        match choose s mc sub blocked with
        | none => s
        | some (e, passed, turn) =>
          issueNext mc e (s.modMc mc fun m => { m with
            wheel := if turn then (m.wheel + 1) % 8 else m.wheel
            ents := m.ents.map fun x => if some x.id = passed then { x with passed := x.passed + 1 } else x }))

/-- REFRESH_DUE (R287). -/
def execRefreshDue (mc sub : Nat) (s : State) : Host.Outcome State Fault Refusal :=
  answer s (if decide (16 ≤ mc) || decide (2 ≤ sub) then s
    else s.modMc mc fun m => { m with refreshDue := m.refreshDue ||| (1#2 <<< sub) })

/-- RH_WINDOW_CLEAR (R292): every activation table is cleared. -/
def execRhWindowClear (mc : Nat) (s : State) : Host.Outcome State Fault Refusal :=
  answer s (if 16 ≤ mc then s
    else ((s.mc mc).banks.map Prod.fst).foldl (fun s k => modBank mc k (fun b => { b with table := [] }) s) s)

/-- The urgency of an age under a target (R290). -/
def urgencyOf (t age : Nat) : Nat :=
  if t = 0 then 0 else if t ≤ age then 3 else if 3 * t ≤ 4 * age then 2 else if t ≤ 2 * age then 1 else 0

/-- URGENCY_PROMOTION (R290): the waiting request at position `i` of the subchannel has reached an age. -/
def execUrgencyPromotion (mc sub i ageNs : Nat) (s : State) : Host.Outcome State Fault Refusal :=
  answer s (if decide (16 ≤ mc) || decide (2 ≤ sub) then s
    else match (waiting s mc sub)[i]? with
      | none => s
      | some e =>
        let age := max e.ageNs ageNs
        let u := if e.fin then 3 else max e.urg (urgencyOf (s.regF .MC_LAT_TGT 15 0 mc e.port) age)
        let s := s.modMc mc fun m => { m with ents := m.ents.map fun x => if x.id = e.id then { x with ageNs := age, urg := u } else x }
        if e.urg < u then uncEvent (.mc mc) 0x202 [u] 1 e.key s else s)

/-! ## Reads (R297, R307, R311, R312) -/

/-- The data of a read leaves, decrypted under its key ID, and its entry is freed; a read for want of a key is counted. -/
def deliverRead (mc : Nat) (e : MemEnt) (s : State) : State :=
  let r := dramRead s mc e.ca e.line e.key
  let s := if r.2.2 then countKey false s else s
  replyRead mc e.req r.1 r.2.1 0 (s.modMc mc fun m => { m with ents := m.ents.erase e })

/-- A read stays uncorrectable: the line is delivered with poison and rewritten as poison, logged deferred. -/
def deliverPoison (mc : Nat) (e : MemEnt) (s : State) : State :=
  let s := record (.mc mc) (dramErr s mc .deferred 0x02 0 e.ca e.key e.req.src) (poisonLine mc e.ca s)
  let s := if forwards s mc e.line then poisonLine (mc + 1) e.ca s else s
  deliverRead mc e s

/-- Another try of a read found uncorrectable. -/
def tryAgain (mc : Nat) (e : MemEnt) (s : State) : State :=
  s.modMc mc fun m => { m with ents := m.ents.map fun x => if x.id = e.id then { x with tries := x.tries + 1 } else x }

/-- What the code finds in a read, an armed injection included (R603); the device of an injected error is a free value. -/
def foundBy (mc : Nat) (e : MemEnt) (o : EccOutcome) (s : State) : EccOutcome :=
  if injArmed s (.mc mc) 0x30 [1] (e.line * 64) then .uncorrectable
  else if injArmed s (.mc mc) 0x30 [0] (e.line * 64) ∧ o = .clean then .corrected ((Config.free64 s.free).toNat % 16)
  else o

/-- DRAM_READ_COMPLETE (R297, R307): what the code finds in the oldest issued read of a subchannel. An uncorrectable line is read
again, in a mirrored region from the partner after that; the outcome of each try is a command of its own. -/
def execDramReadComplete (mc sub : Nat) (o : EccOutcome) (s : State) : Host.Outcome State Fault Refusal :=
  answer s (if 16 ≤ mc then s
    else match (s.mc mc).ents.find? fun e => !e.write && e.issued && e.ca % 2 == sub with
      | none => s
      | some e =>
        let mir := forwards s mc e.line
        let fix := fun (dev : Nat) (s : State) =>
          deliverRead mc e (logCorrected mc e.ca e.key e.req.src dev (if e.tries = 2 then copyLine (mc + 1) mc e.ca s else s))
        match foundBy mc e o s with
        | .clean => if e.tries = 0 then deliverRead mc e s else fix 0 s
        | .corrected d => fix d s
        | .uncorrectable =>
          if (NMap.get LMeta.plain s.lmeta (cellLine mc e.ca)).poison then deliverRead mc e s
          else if e.tries = 0 ∨ (e.tries = 1 ∧ mir) then tryAgain mc e s
          else deliverPoison mc e s)

/-! ## Sparing, replay, patrol, repair -/

/-- SPARING_COPY_END (R302, R303). -/
def execSparingCopyEnd (mc rank sub : Nat) (s : State) : Host.Outcome State Fault Refusal :=
  answer s (if 16 ≤ mc then s
    else match NMap.find? (s.mc mc).spared (rank * 2 + sub) with
      | some (b, false) =>
        record (.mc mc) (mkRec .corrected (mcStop mc) 0x30 0x0C (rank * 2 ^ 12 + b * 2 ^ 7 + sub * 2 ^ 6))
          (s.modMc mc fun m => { m with spared := NMap.put m.spared (rank * 2 + sub) (b, true) })
      | _ => s)

/-- ALERT_N (R299): `fails` attempts of the replay fail. The fourth stops the channel: a fatal record, and status 4 for every
request that is queued. -/
def execAlertN (mc fails : Nat) (s : State) : Host.Outcome State Fault Refusal :=
  answer s (if 16 ≤ mc ∨ fails < 4 ∨ (s.mc mc).dead then s
    else
      let q := (s.mc mc).ents
      let s := record (.mc mc) (mkRec .fatal (mcStop mc) 0x31 0x0F 3)
        (s.modMc mc fun m => { m with dead := true, ents := [], drain := 0 })
      (q.filter fun e => !e.write).foldl (fun s e => replyRead mc e.req 0 true 4 s) s)

/-- One patrol read of an unmirrored line (R297, R301). -/
def patrolOne (mc loc : Nat) (o : EccOutcome) (s : State) : State :=
  match o with
  | .clean => s
  | .corrected d => logCorrected mc loc 0 (mcStop mc) d s
  | .uncorrectable =>
    if (NMap.get LMeta.plain s.lmeta (cellLine mc loc)).poison then s
    else record (.mc mc) (dramErr s mc .deferred 0x02 0 loc 0 (mcStop mc)) (poisonLine mc loc s)

/-- R308: both copies of a mirrored line, primary `a` and partner `b`, are read and compared. -/
def patrolBoth (mc a b loc : Nat) (oa ob : EccOutcome) (s : State) : State :=
  let fix := fun (ch : Nat) (o : EccOutcome) (s : State) => match o with
    | .corrected d => logCorrected ch loc 0 (mcStop ch) d s
    | _ => s
  let s := fix b ob (fix a oa s)
  let bad := fun (o : EccOutcome) => decide (o = .uncorrectable)
  let log := fun (cls : ErrClass) (s : State) => record (.mc mc) (dramErr s mc cls 0x0E 0 loc 0 (mcStop mc)) s
  if bad oa && bad ob then log .deferred (poisonLine b loc (poisonLine a loc s))
  else if bad oa then log .corrected (copyLine b a loc s)
  else if bad ob then log .corrected (copyLine a b loc s)
  else if rawLine s (cellLine a loc) = rawLine s (cellLine b loc) then s
  else log .uncorrected (copyLine a b loc s)

/-- PATROL_READ (R301, R308): the next line of the channel in ascending order, which waits for a write entry of it. The outcomes
are those after the re-read of R297; `partner` is that of the other copy of a mirrored line. -/
def execPatrolRead (mc : Nat) (o partner : EccOutcome) (s : State) : Host.Outcome State Fault Refusal :=
  let lines := s.regF .MC_DIMM 47 32 mc * 2 ^ 24
  let loc := (s.mc mc).patrol
  answer s (if decide (16 ≤ mc) || s.regF .MC_RAS_CFG 15 8 mc == 0 || lines == 0 || (s.mc mc).dead || (s.mc mc).selfRefresh ||
      (s.mc mc).ents.any (fun e => e.write && e.ca == loc) then s
    else
      let s := uncEvent (.mc mc) 0x200 [4] 1 0 (s.modMc mc fun m => { m with patrol := (loc + 1) % lines })
      match regionOf s mc loc with
      | some (i, part) =>
        let a := if part then mc - 1 else mc
        if bit (s.reg .SAM_RCFG 0 i) 63 && (s.reg .AVAIL_MEM).getLsbD a && (s.reg .AVAIL_MEM).getLsbD (a + 1) then
          patrolBoth mc a (a + 1) loc (if part then partner else o) (if part then o else partner) s
        else patrolOne mc loc o s
      | none => patrolOne mc loc o s)

/-- Soft post-package repair of a row: the bank's traffic is held until the procedure ends, within the step (R304). -/
def softRepair (mc rank bank row : Nat) (s : State) : State :=
  [0, 1].foldl (fun s sub => modBank mc (bankKey rank sub bank) (fun b => { b with openRow := none }) s)
    (s.modMc mc fun m => { m with repaired := m.repaired ++ [(rank, bank, row)] })

/-- SOFT_PPR (R304). -/
def execSoftPpr (mc rank bank row : Nat) (s : State) : Host.Outcome State Fault Refusal :=
  answer s (if 16 ≤ mc then s else softRepair mc rank bank row s)

end Sys2Proof.Machine
end

