-- ==== Sys2Proof/Machine/Log.lean ====
section
/-! DEFINITION. The boot flash's error-log ring, which CX2 writes (14.4). -/

namespace Sys2Proof.Machine

/-! ## Flash bytes (Table 15-1) -/

/-- Bytes of the boot flash. -/
def flashBytes (s : State) (off n : Nat) : List Byte := (List.range n).map fun i => NMap.get 0xFF s.boot.flash (off + i)

/-- Programs bytes of the boot flash. -/
def flashPut (off : Nat) (bs : List Byte) (s : State) : State :=
  { s with boot := { s.boot with flash := bs.zipIdx.foldl (fun m e => NMap.set 0xFF m (off + e.2) e.1) s.boot.flash } }

/-- Erases a range of the boot flash. -/
def flashErase (off n : Nat) (s : State) : State :=
  { s with boot := { s.boot with flash := s.boot.flash.filter fun e => decide (e.1 < off) || decide (off + n ≤ e.1) } }

/-- Where the ring lies, its entries, and the entries of a 64 KiB sector. -/
def ringBase : Nat := 0x2200000
def ringSize : Nat := 65536
def sectorSize : Nat := 1024

/-! ## Entries (Table 14-12) -/

/-- An entry: kind, number, time word and the three words of identification. -/
structure LogEntry where
  kind : Nat
  seq : Nat
  time : W64
  status : W64
  addr : W64
  misc : W64
  deriving DecidableEq, Repr

/-- The bytes of an entry. -/
def LogEntry.bytes (e : LogEntry) : List Byte :=
  let body := leBytes 8 (0x4C47 * 2 ^ 48 + e.kind % 256 * 2 ^ 40 + e.seq % 2 ^ 32) ++ leBytes 8 e.time.toNat ++
    leBytes 8 e.status.toNat ++ leBytes 8 e.addr.toNat ++ leBytes 8 e.misc.toNat ++ leBytes 8 0 ++ leBytes 8 0
  body ++ leBytes 8 (crc32c body)

/-- The entry at a position of the ring; none where no whole entry stands. -/
def entryAt (s : State) (pos : Nat) : Option LogEntry :=
  let bs := flashBytes s (ringBase + 64 * pos) 64
  let w := fun i => w64 (leNat ((bs.drop (8 * i)).take 8))
  if fld (w 0) 63 48 = 0x4C47 ∧ (w 7).toNat = crc32c (bs.take 56) then
    some ⟨fld (w 0) 47 40, fld (w 0) 31 0, w 1, w 2, w 3, w 4⟩
  else none

/-- The positions that hold an entry: those whose magic is programmed. -/
def usedPositions (s : State) : List Nat :=
  (s.boot.flash.filter fun e => decide (ringBase ≤ e.1) && decide (e.1 < ringBase + 64 * ringSize) && e.1 % 64 == 7).map
    fun e => (e.1 - ringBase) / 64

/-- Every entry of the ring. -/
def logEntries (s : State) : List LogEntry := (usedPositions s).filterMap (entryAt s)

/-- Whether two entries identify the same thing. -/
def LogEntry.same (a b : LogEntry) : Bool := a.status == b.status && a.addr == b.addr && a.misc == b.misc

/-- The entries of kinds 1 to 3 that no later entry of kind 5 withdraws. -/
def liveEntries (s : State) : List LogEntry :=
  let es := logEntries s
  es.filter fun e => decide (1 ≤ e.kind) && decide (e.kind ≤ 3) &&
    !es.any fun x => x.kind == 5 && x.same e && decide (e.seq < x.seq)

/-- Writes an entry at the head of the ring. -/
def putEntry (e : LogEntry) (s : State) : State :=
  let t := flashPut (ringBase + 64 * s.boot.logPos) { e with seq := s.boot.logSeq }.bytes s
  { t with boot := { t.boot with logPos := (s.boot.logPos + 1) % ringSize, logSeq := s.boot.logSeq + 1 } }

/-- The sector after the one the head enters is erased for reuse; its live entries are rewritten at the head first (R602). -/
def recycle (s : State) : State :=
  let n := (s.boot.logPos / sectorSize + 1) % (ringSize / sectorSize)
  let here := (usedPositions s).filter fun p => p / sectorSize == n
  let live := liveEntries s
  let keep := here.filterMap fun p => (entryAt s p).filter live.contains
  flashErase (ringBase + 64 * sectorSize * n) (64 * sectorSize) (keep.foldl (fun s e => putEntry e s) s)

/-- CX2 writes an entry: Cold boots and the time since Cold reset in its time word (Table 14-12). -/
def appendLog (kind : Nat) (status addr misc : W64) (timeUs : Nat) (s : State) : State :=
  let s := if s.boot.logPos % sectorSize = 0 then recycle s else s
  putEntry ⟨kind, 0, w64 (s.boot.colds % 2 ^ 16 * 2 ^ 48 + timeUs % 2 ^ 48), status, addr, misc⟩ s

/-! ## What entries name -/

/-- The status word that identifies a resource, in the layout of Table 14-7: stop and unit. -/
def resourceWord : Resource → W64
  | .tile t => w64 (2 ^ 63 + tileStop t * 2 ^ 48 + 0x10 * 2 ^ 40)
  | .channel n => w64 (2 ^ 63 + mcStop n * 2 ^ 48 + 0x30 * 2 ^ 40)
  | .sweep n => w64 (2 ^ 63 + mcStop n * 2 ^ 48 + 0x33 * 2 ^ 40)
  | .io n => w64 (2 ^ 63 + ioStop n * 2 ^ 48 + 0x40 * 2 ^ 40)

/-- The resource a status word names. -/
def wordResource (w : W64) : Option Resource :=
  match stopKind (fld w 55 48) with
  | some (0, t) => some (.tile t)
  | some (1, n) => some (if fld w 47 40 = 0x33 then .sweep n else .channel n)
  | some (2, n) => some (.io n)
  | _ => none

/-- A resource logged out of service (kind 1). -/
def logOut (x : Resource) (s : State) : State := appendLog 1 (resourceWord x) 0 0 s.timeUs s

/-- The words that name a way: unit and way in the status word, the core in the address word. -/
def wayWord : CacheId → Nat → W64 × W64
  | .l1i n, w => (w64 (2 ^ 63 + coreStop n * 2 ^ 48 + 0x01 * 2 ^ 40 + w * 2 ^ 12), w64 n)
  | .l1d n, w => (w64 (2 ^ 63 + coreStop n * 2 ^ 48 + 0x02 * 2 ^ 40 + w * 2 ^ 12), w64 n)
  | .l2 n, w => (w64 (2 ^ 63 + coreStop n * 2 ^ 48 + 0x03 * 2 ^ 40 + w * 2 ^ 12), w64 n)
  | .l3 t, w => (w64 (2 ^ 63 + tileStop t * 2 ^ 48 + 0x10 * 2 ^ 40 + w * 2 ^ 12), w64 t)
  | _, _ => (0, 0)

/-- The way an entry of kind 2 names. -/
def wordWay (e : LogEntry) : Option (CacheId × Nat) :=
  let n := e.addr.toNat
  let w := fld e.status 15 12
  match fld e.status 47 40 with
  | 0x01 => some (.l1i n, w)
  | 0x02 => some (.l1d n, w)
  | 0x03 => some (.l2 n, w)
  | 0x10 => some (.l3 n, w)
  | _ => none

/-- A way logged disabled (kind 2), or the entry withdrawn when it is enabled again (kind 5). -/
def logWay (c : CacheId) (way : Nat) (on : Bool) (s : State) : State :=
  let w := wayWord c way
  appendLog (if on then 5 else 2) w.1 w.2 0 s.timeUs s

end Sys2Proof.Machine
end

