-- ==== Sys2Proof/Machine/RegFile.lean ====
section
/-! DEFINITION. What a write of a register leaves in its fields, by access type (Table 00-7). -/

namespace Sys2Proof.Machine

/-- The mask of a field. -/
def Field.mask (f : Field) : W64 := w64 ((2 ^ (f.hi + 1 - f.lo) - 1) * 2 ^ f.lo)

/-- One field under a write of `v` (R17): RW and RWL take it, RW1C clears the bits written 1, RWS sets them, the others keep their
content. A WO field holds nothing. -/
def Field.write (f : Field) (old v : W64) : W64 :=
  match f.acc with
  | .rw | .rwl => (old &&& ~~~f.mask) ||| (v &&& f.mask)
  | .rw1c => old &&& ~~~(v &&& f.mask)
  | .rws => old ||| (v &&& f.mask)
  | _ => old

/-- The content of a register after a write of `v`. -/
def RegName.merge (r : RegName) (old v : W64) : W64 := r.fields.foldl (fun w f => f.write w v) old

/-- As `merge`, with the RWL fields keeping their content where a lock is set (Table 00-7). -/
def RegName.mergeLocked (r : RegName) (locked : Bool) (old v : W64) : W64 :=
  r.fields.foldl (fun w f => if locked && decide (f.acc = .rwl) then w else f.write w v) old

/-- The fields that a write of part of a register leaves as they are: those it would else set. -/
def RegName.keeps (r : RegName) : W64 :=
  r.fields.foldl (fun m f => match f.acc with | .rw | .rwl => m ||| f.mask | _ => m) 0

/-- The fields that a read shows: WO fields read 0. -/
def RegName.shown (r : RegName) : W64 :=
  r.fields.foldl (fun m f => if f.acc = .wo then m else m ||| f.mask) 0

namespace State

/-- A write of a register by one that may write it, with no effect beyond its fields. -/
def writeReg (s : State) (r : RegName) (v : W64) (u : Nat := 0) (i : Nat := 0) : State :=
  s.setReg r (r.merge (s.reg r u i) v) u i

end State

/-- The fuse group of a register (Table 15-7; group 4 is the pin multiplexer, R634). -/
def RegName.fuseGroup : RegName → Option Nat
  | .SEC_ALM_CFG => some 0
  | .PWR_PKG_CFG | .PWR_THERM => some 1
  | .DB_CFG => some 2
  | .FIN_CFG | .FIN_REGION | .FIN_COPY_CTL | .FIN_RNG_SRC | .FIN_RNG_DST | .FIN_RNG_LEN => some 3
  | .MUX_FN | .MUX_PULL | .MUX_STATUS => some 4
  | .SWU_POLICY => some 5
  | .CX3L_POLICY => some 6
  | .CCH_CE_CFG | .RAS_CFG | .RAS_THR | .MC_RAS_CFG => some 7
  | _ => none

/-- Whether fuses lock a register's fields to their factory defaults: a write is ignored without error (R634). -/
def fuseLocked (s : State) (n : RegName) : Bool := n.fuseGroup.any fun g => bit (s.reg .FUSE_LOCK) g

/-- Whether a requester is level F, as a rule that names level F means it. -/
def isF : Req → Bool
  | .core _ .F _ => true
  | _ => false

/-- Whether a requester is level H or F. -/
def isHF : Req → Bool
  | .core _ .F _ | .core _ .H _ => true
  | _ => false

end Sys2Proof.Machine
end

