-- ==== Sys2Proof/Machine/CacheRas.lean ====
section
/-! DEFINITION. Recovery of L2 tags, way disable, quadrant mode and dirty budgets (05.4, 05.7, 05.8). -/

namespace Sys2Proof.Machine

/-! ## Records of a cache (Tables 05-11, 14-8) -/

/-- The error bank of a cache, its stop and its unit code. -/
def cacheBank : CacheId → BankId × Nat × Nat
  | .l1i n => (.core n, coreStop n, 0x01)
  | .l1d n => (.core n, coreStop n, 0x02)
  | .l2 n => (.core n, coreStop n, 0x03)
  | .l3 t => (.tile t, tileStop t, 0x10)
  | .cxI k | .cxD k => (.sv k, svStop k, 0x50)

/-- A record of a cache about a way and set. -/
def cacheErr (c : CacheId) (cls : ErrClass) (type way set : Nat) : BankId × ErrRec :=
  let b := cacheBank c
  (b.1, mkRec cls b.2.1 b.2.2 type (way % 16 * 2 ^ 12 + set % 2 ^ 12))

/-- A record of a cache enters its bank. -/
def cacheRecord (c : CacheId) (cls : ErrClass) (type way set : Nat) (s : State) : State :=
  let r := cacheErr c cls type way set
  record r.1 r.2 s

/-! ## Broadcasts on the control plane -/

/-- A broadcast reaches a stop whose port is in RUN; it wakes a gated island, and is lost on one that is in reset or fenced
(Table 06-12). -/
def atPort (stop : Nat) (f : State → State) (s : State) : State :=
  match s.regF .NI_PORT 2 0 stop with
  | 0 => f s
  | 1 => s.setRegF .NI_PORT 2 0 2 stop
  | _ => s

/-- The code of a kind of broadcast in its acknowledgements. -/
def bcastCode : BcastKind → Nat
  | .samUpd => 0
  | .tlbi => 1
  | .potInv => 2
  | .iotuInv => 3
  | .tagRecov => 4

/-- A stop acknowledges a broadcast. -/
def sendAck (b : Bcast) (src : Nat) (s : State) : State :=
  send { mkPacket .BcAck src b.src 0 b.arg 0 .ni b.who with arg := bcastCode b.kind } s

/-! ## Tag recovery (R209) -/

/-- The key of a recovering set. -/
def recovKey (n set : Nat) : Nat := n * 1024 + set

/-- L2_TAG_RECOVERY (R209, Table 05-11): the set stops serving and all 72 slices are asked. -/
def execL2TagRecovery (n set : Nat) (s : State) : Host.Outcome State Fault Refusal :=
  answer s (if decide (144 ≤ n) || decide (1024 ≤ set) || (NMap.find? s.homes.recov (recovKey n set)).isSome then s
    else
      let s := cacheRecord (.l2 n) .corrected 0x03 0 set s
      { s with
        homes := { s.homes with recov := NMap.put s.homes.recov (recovKey n set) (BitVec.allOnes 72) }
        fab := { s.fab with bcasts := s.fab.bcasts ++
          [⟨.tagRecov, coreStop n, .core n, 0, 0, set, .untranslated, [], (List.range 72).map tileStop⟩] } })

/-- The lines of a set of core `n`'s L2 that the directory of a slice records as EM or O in it: line, way and whether O. -/
def ownedIn (s : State) (t n set : Nat) : List (Nat × Nat × Bool) :=
  s.dir.filterMap fun e =>
    if e.1 / 65536 = t ∧ e.2.st ≠ .S ∧ e.2.owner = n ∧ e.2.line % 1024 = set then some (e.2.line, e.2.way, decide (e.2.st = .O))
    else none

/-- TAGRECOV (R209, R252). -/
def execTagrecov (slice n set : Nat) (s : State) : Host.Outcome State Fault Refusal :=
  answer s (match NMap.find? s.homes.recov (recovKey n set),
      s.fab.bcasts.find? (fun b => decide (b.kind = .tagRecov) && decide (b.who = .core n) && b.arg == set) with
    | some left, some b =>
      if !left.getLsbD slice then s
      else atPort (tileStop slice) (fun s =>
        sendAck b (tileStop slice) (s.modHomes fun h => { h with
          recov := NMap.put h.recov (recovKey n set) (left &&& ~~~(1#72 <<< slice))
          recovered := h.recovered ++ ((ownedIn s slice n set).map fun e => (n, e.1, e.2.1, e.2.2)) })) s
    | _, _ => s)

/-- Every slice has answered: the reported tags are rewritten as M or O in their ways, and every other line of the set leaves the
L2 and its presence the homes (R209). -/
def rebuildSet (n set : Nat) (s : State) : State :=
  let mine := s.homes.recovered.filter fun e => e.1 == n && e.2.1 % 1024 == set
  let s := (((cacheLines s (.l2 n)).filter fun l => l.line % 1024 == set).foldl (fun s l =>
    match mine.find? fun e => e.2.1 == l.line with
    | some e => modLine (.l2 n) l.line (fun x => { x with st := if e.2.2.2 then .O else .M }) s
    | none => toHome .EvC n l.line l.key 0 false false (dropCore n l.line s)) s)
  s.modHomes fun h => { h with recov := NMap.erase h.recov (recovKey n set),
                               recovered := h.recovered.filter fun e => !(e.1 == n && e.2.1 % 1024 == set) }

/-! ## Corrected errors of a way, and way disable (R210 to R213) -/

/-- The 24 hourly buckets of a way, followed by whether its limit record has been made. -/
def wayBuckets (s : State) (c : CacheId) (way : Nat) : List Nat :=
  NMap.get (List.replicate 25 0) s.homes.ways (cacheNo c * 16 + way)
def setBuckets (c : CacheId) (way : Nat) (b : List Nat) (s : State) : State :=
  s.modHomes fun h => { h with ways := NMap.set (List.replicate 25 0) h.ways (cacheNo c * 16 + way) b }

/-- How many ways of a cache may be disabled (R211). -/
def disableLimit : CacheId → Nat
  | .l1i _ | .l1d _ => 1
  | .l2 _ | .l3 _ => 2
  | _ => 0

/-- The number of ways set in a mask. -/
def countWays (m : Nat) : Nat := ((List.range 16).filter fun w => m.testBit w).length

/-- The way-disable register of a cache, its tile and the low bit of the cache's field (Tables 05-13, 05-14). -/
def wayField : CacheId → RegName × Nat × Nat
  | .l1i n => (.TC_WAYDIS0, n / 2, 16 * (n % 2))
  | .l1d n => (.TC_WAYDIS0, n / 2, 16 * (n % 2) + 8)
  | .l2 n => (.TC_WAYDIS1, n / 2, 16 * (n % 2))
  | .l3 t => (.TC_WAYDIS1, t, 32)
  | .cxI _ | .cxD _ => (.TC_WAYDIS0, 0, 64)

/-- The low bit of the AVAIL_WAYS count of a cache's kind. -/
def availField : CacheId → Nat
  | .l1i _ | .l1d _ => 0
  | .l2 _ => 16
  | _ => 32

/-- A line leaves a way that is being disabled: dirty data goes home, to the L2 or to memory. -/
def leaveWay (c : CacheId) (l : CLine) (s : State) : State :=
  match c with
  | .l1d n => clearResv n l.line (dropLine c l.line (mergeDirty n l.line s))
  | .l2 n => evictL2 n l.line s
  | .l3 t =>
    shadowMsg t l.line s (dropLine c l.line (if l.st = .M then memWrite t l.line l.key l.data l.poison s else s))
  | _ => dropLine c l.line s

/-- R210, steps 1 to 5. -/
def disableWay (c : CacheId) (way : Nat) (s : State) : State :=
  let f := wayField c
  let s := s.setRegF f.1 (f.2.2 + way) (f.2.2 + way) 1 f.2.1
  let here := (s.lines.filter fun e => e.1 / 65536 == cacheNo c && e.1 % 16 == way).map Prod.snd
  let s := here.foldl (fun s l => leaveWay c l s) s
  cacheRecord c .corrected 0x0A way 0 (s.bumpReg .AVAIL_WAYS (availField c + 15) (availField c))

/-- A disabled way comes back, empty (R213). -/
def enableWay (c : CacheId) (way : Nat) (s : State) : State :=
  let f := wayField c
  let a := availField c
  (s.setRegF f.1 (f.2.2 + way) (f.2.2 + way) 0 f.2.1).setRegF .AVAIL_WAYS (a + 15) a (s.regF .AVAIL_WAYS (a + 15) a - 1)

/-- A corrected error of a way is counted; at the threshold the way is disabled, or the limit recorded once (R210 to R212). -/
def countWay (c : CacheId) (way : Nat) (s : State) : State :=
  let b := wayBuckets s c way
  let b := b.set 0 (b.headD 0 + 1)
  let s := setBuckets c way b s
  let thr := s.regF .CCH_CE_CFG 7 0
  let dis := disabledWays s c
  if thr = 0 ∨ (b.take 24).sum < thr ∨ dis.testBit way ∨ disableLimit c = 0 then s
  else if countWays dis < disableLimit c then disableWay c way s
  else if b.getD 24 0 = 0 then cacheRecord c .corrected 0x0B way 0 (setBuckets c way (b.set 24 1) s)
  else s

/-- Whether a cache is one whose ways count errors. -/
def cacheIn : CacheId → Bool
  | .l1i n | .l1d n | .l2 n => decide (n < 144)
  | .l3 t => decide (t < 72)
  | .cxI k | .cxD k => decide (k < 4)

/-- CE_WINDOW_ROLL (R210): the oldest hourly bucket of a way leaves its window. -/
def execCeWindowRoll (c : CacheId) (way : Nat) (s : State) : Host.Outcome State Fault Refusal :=
  answer s (if cacheIn c && decide (way < cacheWays c) then
      let b := wayBuckets s c way
      setBuckets c way ((0 :: b.take 23) ++ [b.getD 24 0]) s
    else s)

/-- The caches whose fields a way-disable register holds. -/
def wayCaches (tile : Nat) (hi : Bool) : List CacheId :=
  if hi then [.l2 (2 * tile), .l2 (2 * tile + 1), .l3 tile]
  else [.l1i (2 * tile), .l1d (2 * tile), .l1i (2 * tile + 1), .l1d (2 * tile + 1)]

/-- A CX2 write of TC_WAYDIS0 or TC_WAYDIS1 (R213). -/
def writeWays (tile : Nat) (hi : Bool) (v : W64) (r : Req) (s : State) : State :=
  let want := fun (c : CacheId) => (v.toNat >>> (wayField c).2.2) % 2 ^ cacheWays c
  if (wayCaches tile hi).any fun c => decide (disableLimit c < countWays (want c)) then refuse (.tile tile) (tileStop tile) r s
  else (wayCaches tile hi).foldl (fun s c =>
    (List.range (cacheWays c)).foldl (fun s w =>
      match (disabledWays s c).testBit w, (want c).testBit w with
      | false, true => disableWay c w s
      | true, false => logWay c w true (enableWay c w s)
      | _, _ => s) s) s

/-- TC_WAYDIS_WRITE (R213): another requester's write is ignored. -/
def execTcWaydisWrite (r : Req) (tile : Nat) (hi : Bool) (v : W64) (s : State) : Host.Outcome State Fault Refusal :=
  answer s (if r = .cx 2 ∧ tile < 72 then writeWays tile hi v r s else s)

/-! ## Quadrant mode and dirty budgets -/

/-- A write of CCH_MODE (R188). -/
def writeMode (r : Req) (v : W64) (s : State) : State :=
  if r = .cx 0 ∧ !bit (s.reg .CCH_MODE) 1 then s.setReg .CCH_MODE (w64 (fld v 1 0)) else s

/-- CCH_MODE_WRITE (R188). -/
def execCchModeWrite (r : Req) (v : W64) (s : State) : Host.Outcome State Fault Refusal := answer s (writeMode r v s)

/-- A write of DB_CFG (R205, R207, R634). -/
def writeDbCfg (r : Req) (v : W64) (s : State) : State :=
  if !fuseLocked s .DB_CFG && (isF r || r == .cx 0 || r == .cx 1) && !bit (s.reg .DB_CFG) 63 then
    s.setReg .DB_CFG (w64 ((bit v 63).toNat * 2 ^ 63 + fld v 13 8 * 2 ^ 8 + fld v 4 0))
  else s

/-- DB_CFG_WRITE (R205, R207): a cache above a lowered limit cleans by BACKGROUND_CLEAN. -/
def execDbCfgWrite (r : Req) (v : W64) (s : State) : Host.Outcome State Fault Refusal := answer s (writeDbCfg r v s)

end Sys2Proof.Machine
end

