-- ==== Sys2Proof/Machine/Predict.lean ====
section
/-! DEFINITION. Branch prediction (04.2): what a retiring branch finds in the predictor and leaves there. Where Table 04-3 gives the
contents of a structure and no rule for its counters, they saturate towards the outcome (log entry 11). -/

namespace Sys2Proof.Machine

/-- The entry of tagged table `t` (0 to 7 for T1 to T8) that matches, with its key (Table 04-3, R143). -/
def Core.tagHit (c : Core) (pc : W64) (t : Nat) : Option (Nat × BitVec 3 × BitVec 2) :=
  let k := t * 2048 + (Config.tagIndex t pc c.pred.history).toNat
  match NMap.find? c.pred.tagged k with
  | some (w, tag, ctr, u) =>
    if w = c.world ∧ tag = Config.tagTag t pc c.pred.history then some (k, ctr, u) else none
  | none => none

/-- The bimodal prediction: pc[15:2]; no entry of this world predicts not taken. -/
def Core.bimodalTaken (c : Core) (pc : W64) : Bool :=
  match NMap.find? c.pred.bimodal (fld pc 15 2) with
  | some (w, ctr) => w == c.world && decide (2 ≤ ctr.toNat)
  | none => false

/-- The matching tagged tables, longest history first. -/
def Core.tagHits (c : Core) (pc : W64) : List (Nat × Nat × BitVec 3 × BitVec 2) :=
  [7, 6, 5, 4, 3, 2, 1, 0].filterMap fun t => (c.tagHit pc t).map fun e => (t, e)

/-- R138: the predicted direction: the longest match, or its alternate when it is weak and not useful. -/
def Core.predictTaken (c : Core) (pc : W64) : Bool :=
  match c.tagHits pc with
  | [] => c.bimodalTaken pc
  | (_, _, ctr, u) :: rest =>
    if u = 0 ∧ (ctr = 3 ∨ ctr = 4) then
      match rest with
      | [] => c.bimodalTaken pc
      | (_, _, ctr', _) :: _ => decide (4 ≤ ctr'.toNat)
    else decide (4 ≤ ctr.toNat)

/-- A counter of `n` values moves one step towards the outcome. -/
def towards (n : Nat) (taken : Bool) (v : Nat) : Nat := if taken then min (n - 1) (v + 1) else v - 1

/-- R139: after a mispredict, one entry in a table of longer history than the provider, or the candidates become less useful. -/
def Predictor.allocate (p : Predictor) (w : World) (pc : W64) (from_ : Nat) (taken : Bool) : Predictor :=
  let ts := (List.range 8).filter fun t => decide (from_ ≤ t)
  let key := fun t => t * 2048 + (Config.tagIndex t pc p.history).toNat
  let free := fun t => match NMap.find? p.tagged (key t) with
    | some (_, _, _, u) => u == 0
    | none => true
  match ts.find? free with
  | some t =>
    { p with tagged := NMap.put p.tagged (key t) (w, Config.tagTag t pc p.history, if taken then 4 else 3, 0) }
  | none =>
    { p with tagged := ts.foldl (fun m t => match NMap.find? m (key t) with
        | some (w', g, ctr, u) => NMap.put m (key t) (w', g, ctr, u - 1)
        | none => m) p.tagged }

/-- A taken branch enters both target buffers (R144), of 256 and 8192 entries, the oldest leaving. -/
def Predictor.target (p : Predictor) (w : World) (pc t : W64) : Predictor :=
  let put := fun (n : Nat) (l : List (W64 × World × W64)) =>
    let l := l.filter (fun e => e.1 != pc) ++ [(pc, w, t)]
    l.drop (l.length - n)
  { p with l0 := put 256 p.l0, l1 := put 8192 p.l1 }

/-- The path history: the last 12 taken targets. -/
def Predictor.took (p : Predictor) (t : W64) : Predictor := { p with path := (t :: p.path).take 12 }

/-- A conditional branch retires: whether it was predicted right, and the predictor after it (R138, R139, R144). -/
def Core.trainBranch (c : Core) (taken : Bool) (target : W64) : Bool × Core :=
  let pc := c.pc
  let right := c.predictTaken pc == taken
  let hits := c.tagHits pc
  let p := c.pred
  let ctr := match NMap.find? p.bimodal (fld pc 15 2) with
    | some (w, v) => if w = c.world then v.toNat else if taken then 1 else 2
    | none => if taken then 1 else 2
  let p := { p with bimodal := NMap.put p.bimodal (fld pc 15 2) (c.world, BitVec.ofNat 2 (towards 4 taken ctr)) }
  let p := match hits with
    | (_, k, v, u) :: _ =>
      let u' := if right then BitVec.ofNat 2 (towards 4 true u.toNat) else u
      { p with
        tagged := NMap.put p.tagged k
          (c.world, (match NMap.find? p.tagged k with | some e => e.2.1 | none => 0),
            BitVec.ofNat 3 (towards 8 taken v.toNat), u') }
    | [] => p
  let p := if right then p else p.allocate c.world pc (match hits with | (t, _) :: _ => t + 1 | [] => 0) taken
  let p := if taken then (p.target c.world pc target).took target else p
  (right, { c with pred := { p with history := (p.history <<< 1) ||| (if taken then 1 else 0) } })

/-- The indirect-target prediction of a pc. -/
def Core.indirect (c : Core) (pc : W64) : Option W64 :=
  let i := (Config.indIndex pc c.pred.path).toNat
  let t := Config.indTag pc c.pred.path
  [0, 1, 2, 3].findSome? fun w => match NMap.find? c.pred.ind (i * 4 + w) with
    | some (x, tag, target) => if x = c.world ∧ tag = t then some target else none
    | none => none

/-- The indirect-target table learns a target. -/
def Predictor.learn (p : Predictor) (w : World) (pc target : W64) : Predictor :=
  let i := (Config.indIndex pc p.path).toNat
  let t := Config.indTag pc p.path
  let same := [0, 1, 2, 3].find? fun k => match NMap.find? p.ind (i * 4 + k) with
    | some (x, tag, _) => x == w && tag == t
    | none => false
  let free := [0, 1, 2, 3].find? fun k => (NMap.find? p.ind (i * 4 + k)).isNone
  let way := match same, free with | some k, _ => k | none, some k => k | none, none => 0
  { p with ind := NMap.put p.ind (i * 4 + way) (w, t, target) }

/-- R140, R141: a push onto the return stack of 64 entries. -/
def Predictor.push (p : Predictor) (v : W64) : Predictor := { p with ras := (v :: p.ras).take 64 }

/-- A JR retires: its prediction (R140) and the predictor after it. -/
def Core.trainJump (c : Core) (rd rs1 : RegNo) (target : W64) : Bool × Core :=
  let pc := c.pc
  let ret := rd.toNat = 0 ∧ rs1.toNat = 31
  match (if ret then c.pred.ras else []) with
  | top :: rest =>
    (top == target, { c with pred := ({ c.pred with ras := rest }.target c.world pc target).took target })
  | [] =>
    let p := (c.pred.learn c.world pc target).target c.world pc target
    let p := if rd.toNat = 31 then p.push (pc + 4) else p
    (c.indirect pc == some target, { c with pred := p.took target })

/-- An unconditional direct branch retires; BL pushes its return address (R140). -/
def Core.trainDirect (c : Core) (link : Bool) (target : W64) : Core :=
  let p := c.pred.target c.world c.pc target
  { c with pred := (if link then p.push (c.pc + 4) else p).took target }

end Sys2Proof.Machine
end

