-- ==== Sys2Proof/Machine/Branch.lean ====
section
/-! DEFINITION. Branches of main cores and of Coxswain pairs (02.5, 02.11). -/

namespace Sys2Proof.Machine

/-- The core has reached a new pc: an instruction in device memory, or one its translation does not let it fetch, raises on fetch
(R162, R89) as soon as the translation is at hand; a missing translation is fetched by TLB_FILL. -/
def landing (n : Nat) (s : State) : State :=
  let c := s.core n
  let ctx := coreCtx s n c.level
  match tlbHit s n ctx c.pc.toNat with
  | none => s
  | some e =>
    match tlbFault e ctx c.pc.toNat .fetch with
    | some f => raiseFault n 5 f .fetch s
    | none => if e.mt = .device then raiseCause n 5 ⟨0x05, 2, 0, false, c.pc⟩ 0 s else s

/-- The Erg event of a retired branch: its class of Table 16-8 and whether it was predicted. -/
def branchEvents (n : Nat) (c : Core) (kase : Nat) (right : Bool) (s : State) : State :=
  let s := ergEvent n c 0x003 (some kase) 1 s
  if right then s else ergEvent n c 0x004 (some kase) 1 s

/-- The branch code of a sample record (Table 16-4). -/
def branchCode (taken right : Bool) : Nat := if !right then 3 else if taken then 2 else 1

/-- A conditional branch of core `n`, taken or not. -/
def condBranch (n : Nat) (taken : Bool) (target : W64) (s : State) : State :=
  let c := s.core n
  let r := c.trainBranch taken target
  let s := s.setCore n { r.2 with pc := if taken then target else c.pc + 4 }
  landing n (retire n c { cls := 5, branch := branchCode taken r.1 } (branchEvents n c 0 r.1 s))

/-- An unconditional direct branch. -/
def directBranch (n : Nat) (link : Bool) (off : BitVec 24) (s : State) : State :=
  let c := s.core n
  let t := c.pc + sext off <<< 2
  let d := c.trainDirect link t
  let s := s.setCore n { (if link then d.setG 31 (c.pc + 4) else d) with pc := t }
  landing n (retire n c { cls := 5, branch := 2 } (branchEvents n c 2 true s))

/-- The operand a CBI branch derives from imm8 (R59). -/
def cbiOperand {w : Nat} (cond : BitVec 3) (imm : Byte) : BitVec w :=
  if cond.toNat < 4 then imm.signExtend w else imm.setWidth w

/-- imm8[7:6] of a bit test must be zero (R59). -/
def cbiBad (cond : BitVec 3) (imm : Byte) : Bool := decide (6 ≤ cond.toNat) && decide (64 ≤ imm.toNat)

/-- BCC (R59). -/
def execBcc (a : Agent) (cond : BitVec 3) (rs1 rs2 : RegNo) (off : BitVec 12) (s : State) :
    Host.Outcome State Fault Refusal :=
  answer s (match a with
    | .core n => onCore n (fun s =>
        let c := s.core n
        condBranch n (condHolds cond (c.getG rs1.toNat) (c.getG rs2.toNat)) (c.pc + sext off <<< 2) s) s
    | .cx k => onPair k [rs1, rs2] [] (fun s => s.modPair k fun p =>
        if condHolds cond (p.getR rs1) (p.getR rs2) then { p with pc := p.pc + (off.signExtend 32) <<< 2 }
        else p.advance) s)

/-- BCCI (R59). -/
def execBcci (a : Agent) (cond : BitVec 3) (rs1 : RegNo) (imm : Byte) (off : BitVec 9) (s : State) :
    Host.Outcome State Fault Refusal :=
  answer s (match a with
    | .core n => onCore n (fun s =>
        let c := s.core n
        if cbiBad cond imm then raise n 5 0x01 s
        else condBranch n (condHolds cond (c.getG rs1.toNat) (cbiOperand cond imm)) (c.pc + sext off <<< 2) s) s
    | .cx k => onPair k [rs1] [] (fun s =>
        if cbiBad cond imm then cxTrap k 1 0 s
        else s.modPair k fun p =>
          if condHolds cond (p.getR rs1) (cbiOperand cond imm) then { p with pc := p.pc + (off.signExtend 32) <<< 2 }
          else p.advance) s)

/-- B (R54). -/
def execB (a : Agent) (off : BitVec 24) (s : State) : Host.Outcome State Fault Refusal :=
  answer s (match a with
    | .core n => onCore n (directBranch n false off) s
    | .cx k => onPair k [] [] (fun s => s.modPair k fun p => { p with pc := p.pc + (off.signExtend 32) <<< 2 }) s)

/-- BL; on a pair CALL: the next window, with pc + 4 in its w15 (Table 02-15), ILL in window 0 (R422). -/
def execBl (a : Agent) (off : BitVec 24) (s : State) : Host.Outcome State Fault Refusal :=
  answer s (match a with
    | .core n => onCore n (directBranch n true off) s
    | .cx k => onPair k [] [] (fun s =>
        if (s.pair k).cwp = 0 then cxTrap k 1 0 s
        else takeWindow k (fun win s => s.modPair k fun p =>
          { p.setW win 15 (p.pc + 4) with cwp := win, pc := p.pc + (off.signExtend 32) <<< 2 }) s) s)

/-- JR (R60, R61): a target with bit 0 or 1 set raises Misaligned fetch at the JR. -/
def execJr (a : Agent) (rd rs1 : RegNo) (imm : BitVec 14) (s : State) : Host.Outcome State Fault Refusal :=
  answer s (match a with
    | .core n => onCore n (fun s =>
        let c := s.core n
        let t := c.getG rs1.toNat + sext imm
        if t.toNat % 4 ≠ 0 then raiseCause n 5 ⟨0x03, 2, 0, false, t⟩ 0 s
        else
          let r := c.trainJump rd rs1 t
          let s := s.setCore n { r.2.setG rd.toNat (c.pc + 4) with pc := t }
          landing n (retire n c { cls := 5, branch := branchCode true r.1 } (branchEvents n c 1 r.1 s))) s
    | .cx k => onPair k [rs1] [rd] (fun s =>
        let p := s.pair k
        let t := p.getR rs1 + imm.signExtend 32
        if t.toNat % 4 ≠ 0 then cxTrap k 3 t s
        else s.setPair k { p.setR rd (p.pc + 4) with pc := t }) s)

end Sys2Proof.Machine
end

