-- ==== Sys2Proof/Machine/SysRegs.lean ====
section
/-! DEFINITION. System registers of main cores and of Coxswain pairs: which exist, who reaches them, what they read as and what a
write does (03.3, 10.4, 14.1, 16.1). -/

namespace Sys2Proof.Machine

/-! ## Existence and permission (R82, R574, R643 to R645) -/

/-- Whether index `i` is an Erg register (Table 16-1). -/
def ergExists (i : Nat) : Bool :=
  (decide (0x40 ≤ i) && decide (i ≤ 0x44)) || (decide (0x48 ≤ i) && decide (i ≤ 0x5F)) ||
    (decide (0x60 ≤ i) && decide (i ≤ 0x64)) || (decide (0x70 ≤ i) && decide (i ≤ 0x77))

/-- Whether a system register exists (Table 03-7, 14.1, Table 16-1). -/
def sysExists (lvl i : Nat) : Bool :=
  if decide (0x40 ≤ i) && decide (i ≤ 0x7F) then ergExists i
  else match lvl with
    | 0 => i == 0
    | 1 => decide (i ≤ 6) || i == 8 || i == 9 || i == 0x0A || i == 0x10 || (decide (0x20 ≤ i) && decide (i ≤ 0x2A))
    | 2 => decide (i ≤ 6) || (decide (8 ≤ i) && decide (i ≤ 0x0D)) || (decide (0x20 ≤ i) && decide (i ≤ 0x2A)) ||
        i == 0x2C || (decide (0x30 ≤ i) && decide (i ≤ 0x3F))
    | _ => decide (i ≤ 6)

/-- Whether a counter register's counter is owned by K. -/
def Core.ownsCnt (c : Core) (i : Nat) : Bool := bit (c.erg 0x41) (24 + i % 8)

/-- R645: access to the Erg registers by level. -/
def ergAllowed (c : Core) (i : Nat) (write : Bool) : Bool :=
  match c.level with
  | .U => !write && bit (c.erg 0x41) 18 && (i == 0x40 || (i / 8 == 10 && c.ownsCnt i))
  | .K =>
    !write || (i / 8 == 9 && c.ownsCnt i) || (i / 8 == 10 && c.ownsCnt i) || i == 0x42 ||
      (bit (c.erg 0x41) 19 && (i == 0x60 || i == 0x62 || i == 0x63 || i == 0x64))
  | _ => true

/-- The exception of an MFS or MTS of a main core, if any: 0x01 or 0x02. -/
def sysFault (c : Core) (lvl i : Nat) (write : Bool) : Option Nat :=
  if !sysExists lvl i then some 0x01
  else if levelNum c.level < lvl then some 0x02
  else if isSealed c.world && (ergExists i || (lvl == 1 && i == 0x10)) then some 0x02
  else if ergExists i && !ergAllowed c i write then some 0x02
  else none

/-! ## Reading -/

/-- The held entry `k` as H_VHELDPk shows it (Table 14-1). -/
def Core.heldReg (c : Core) (k : Nat) : W64 :=
  match NMap.find? c.held k with
  | some h => w64 (2 ^ 63 + h.part % 2 ^ 13)
  | none => 0

/-- The word of an X_ERGSMPREC register: the oldest record (R657). -/
def Core.smpWord (c : Core) (k : Nat) : W64 :=
  if bit (c.erg 0x60) 56 then 0
  else match c.smp.recs with
    | r :: _ => r.getD k 0
    | [] => 0

/-- What an Erg register reads as. -/
def Core.ergRead (c : Core) (i : Nat) : W64 :=
  if i = 0x64 then setFld (c.erg 0x64) 6 0 c.smp.recs.length
  else if 0x70 ≤ i then c.smpWord (i - 0x70)
  else c.erg i

/-- What MFS returns of a system register of core `n`. -/
def sysRead (c : Core) (n lvl i : Nat) : W64 :=
  if 0x40 ≤ i then c.ergRead i
  else if lvl = 1 ∧ i = 0x10 then w64 n
  else if lvl = 1 ∧ i = 0x0A ∧ isSealed c.world then 1
  else if i = 0x29 then (let v := c.vtop c.world lvl; if v = 0 then 0x100 else w64 v)
  else if i = 0x2A then 0
  else if lvl = 2 ∧ i = 0x2C then
    setFld (c.sys .openW 2 0x2C) 15 0 ((List.range 16).foldl (fun m k => m + (NMap.find? c.held k).isSome.toNat * 2 ^ k) 0)
  else if lvl = 2 ∧ 0x30 ≤ i then c.heldReg (i - 0x30)
  else c.sys c.world lvl i

/-- A read of X_ERGSMPREC7 removes the record (R657). -/
def Core.afterRead (c : Core) (i : Nat) : Core :=
  if i = 0x77 ∧ !bit (c.erg 0x60) 56 then { c with smp := { c.smp with recs := c.smp.recs.drop 1 } } else c

/-! ## Writing -/

/-- The writable bits of the plain system registers (Tables 03-4 to 03-12, 03-26, 14-1). -/
def sysMask (lvl i : Nat) : W64 :=
  if lvl = 0 then 0x1F07
  else if i = 0 then 0x33
  else if i = 1 then 0xFFFFFFFFFFFFF000
  else if i = 2 then 0xFFFFFFFFFFFFFFFC
  else if i = 3 then 0x8000000000003FFF
  else if i ≤ 6 then 0xFFFFFFFFFFFFFFFF
  else if lvl = 1 then
    (if i = 8 then 0x000FFFFFFFFFF000 else if i = 9 then 0xFFFF000000000003 else if i = 0x0A then 3
     else if i / 4 = 9 then 0xFFFFFFFFFFFFFFFF else if i = 0x28 then 0xFF else 0)
  else if i = 8 ∨ i = 0x0A then 0x000FFFFFFFFFF000
  else if i = 9 then 0x0000FFFF0000000F
  else if i = 0x0B then 1
  else if i / 4 = 9 then 0xFFFFFFFFFFFFFFFF
  else if i = 0x28 then 0xFF
  else 0

/-- The writable bits of the Erg registers (Tables 16-1 to 16-6). -/
def ergMask (i : Nat) : W64 :=
  if i = 0x40 then 0xFFFFFFFFFFFFFFFF
  else if i = 0x41 then 0x00FFFF00FF0F0000
  else if i / 8 = 9 then 0x000003FCFF0003FF
  else if i / 8 = 10 then 0x0000FFFFFFFFFFFF
  else if i = 0x60 then 0x811FFF000000007F
  else if i = 0x61 then 0x000FFFFFFFFFFF00
  else if i = 0x63 then 0xFFFFFFFF
  else 0

/-- A write of an Erg register (R645, R650, R660, Table 16-6). A write of X_ERGSMPCTL clears lost; one that turns sampling on
starts a period, whose offset `tag` gives. -/
def Core.ergWrite (c : Core) (i : Nat) (v tag : W64) : Core :=
  let m := ergMask i
  let old := c.erg i
  if i = 0x42 then
    let may : W64 := if c.level = .K then zext ((c.erg 0x41 >>> 24).setWidth 8) else 0x1FF
    c.setErg 0x42 (old &&& ~~~(v &&& may))
  else if i = 0x64 then (if bit v 63 then c.setErg 0x64 (setBit old 63 false) else c)
  else if i = 0x60 then
    let w := v &&& m
    let w := if bit (c.erg 0x41) 19 then setBit w 56 false else w
    let c := (c.setErg 0x60 w).setErg 0x64 (setFld (c.erg 0x64) 47 32 0)
    if bit w 63 ∧ !bit old 63 then { c with smp := { c.smp with count := 0, tag := tag.toNat % smpPeriod w } } else c
  else if m = 0 then c
  else c.setErg i ((old &&& ~~~m) ||| (v &&& m))

/-! ## Sending vectors (R580, R581) -/

/-- An Intr packet of core `n` (R580): bank 0 open K, 1 H, 2 sealed K with its partition. -/
def sendIntr (n target bank part v : Nat) (s : State) : State :=
  if v % 256 = 0 ∨ !coreInService s target then
    record (.fabric (coreStop n)) (mkRec .uncorrected (coreStop n) 0x20 0x13 0) s
  else
    send { mkPacket .Intr (coreStop n) (coreStop target) 0 part bank (.core n) (.core target) with arg := v % 256 } s

/-- A write of X_VSEND of the K or H field, which the core may make (R580). -/
def vsend (n : Nat) (lvlH : Bool) (v : W64) (s : State) : State :=
  let c := s.core n
  let t := fld v 23 16
  if !lvlH then
    (if isSealed c.world then sendIntr n t 2 (match c.running with | some r => r.part | none => 0) (fld v 7 0) s
     else sendIntr n t 0 0 (fld v 7 0) s)
  else if fld v 25 24 = 3 then s
  else sendIntr n t (fld v 25 24) (if fld v 25 24 = 2 then fld v 44 32 else 0) (fld v 7 0) s

/-- Whether a write of X_VSEND raises PRV: at level K a bank other than 0 (R580). -/
def vsendBad (c : Core) (lvlH : Bool) (v : W64) : Bool := c.level == .K && !lvlH && fld v 25 24 != 0

/-- R581: a move of held entry `k` to a core: every vector as a sealed delivery, then the entry is free. -/
def moveHeld (n k : Nat) (v : W64) (s : State) : State :=
  let c := s.core n
  match NMap.find? c.held k with
  | none => s
  | some h =>
    if !bit v 32 then s
    else
      let s := s.setCore n { c with held := NMap.erase c.held k }
      ((List.range 256).filter fun i => h.vecs.getLsbD i).foldl (fun s i => sendIntr n (fld v 55 48) 2 h.part i s) s

/-- MTS of a system register that the core may write. -/
def sysWrite (n lvl i : Nat) (v : W64) (s : State) : State :=
  let c := s.core n
  if 0x40 ≤ i then
    let d := s.draw
    if i = 0x60 ∧ bit v 63 ∧ !bit (c.erg 0x60) 63 then d.2.setCore n (c.ergWrite i v d.1)
    else s.setCore n (c.ergWrite i v 0)
  else if 0x20 ≤ i ∧ i < 0x24 then s.setCore n (c.setSys c.world lvl i (c.sys c.world lvl i &&& ~~~v))
  else if i = 0x2A then vsend n (lvl == 2) v s
  else if lvl = 2 ∧ i = 0x2C then s.setCore n (c.setSys .openW 2 0x2C (setFld (c.sys .openW 2 0x2C) 39 32 (fld v 39 32)))
  else if lvl = 2 ∧ 0x30 ≤ i then moveHeld n (i - 0x30) v s
  else if lvl = 1 ∧ i = 0x0A ∧ isSealed c.world then s
  else
    let m := sysMask lvl i
    if m = 0 then s else s.setCore n (c.setSys c.world lvl i ((c.sys c.world lvl i &&& ~~~m) ||| (v &&& m)))

/-! ## CX_ registers of a pair (Tables 10-6 to 10-14) -/

/-- Whether a CX_ register exists (Table 10-11). -/
def cxExists (i : Nat) : Bool :=
  [0, 1, 2, 4, 6, 7, 8, 9, 0x0A, 0x0B, 0x0C, 0x0D, 0x0E, 0x0F, 0x10, 0x11].contains i ||
    (decide (0x20 ≤ i) && decide (i < 0x30)) || (decide (0x40 ≤ i) && decide (i < 0xC0))

/-- Whether world T may read, or write, a CX_ register. -/
def cxOpenT (i : Nat) (write : Bool) : Bool := (i == 0x11 && !write) || (decide (0x28 ≤ i) && decide (i < 0x30))

/-- What MFS returns of a CX_ register. -/
def cxRead (p : Pair) (i : Nat) : W32 :=
  match i with
  | 6 => BitVec.ofNat 32 (p.depth % 2 ^ 12 * 2 ^ 20 + p.freeWins * 2 ^ 8 + (decide (p.cwp = 0)).toNat * 8 + p.cwp % 8)
  | 0x0A => p.pend.setWidth 32
  | 0x0B => (p.pend >>> 32).setWidth 32
  | _ => p.cx i

/-- The writable bits of a CX_ register. -/
def cxMask (i : Nat) : W32 :=
  match i with
  | 0 => 0xF1
  | 1 => 0x800000FF
  | 2 | 8 | 9 | 0x0C | 0x0D | 0x0E | 0x0F => 0xFFFFFFFF
  | 4 => 0x7FE00
  | 7 => 0xE0007FFF
  | 0x10 => 0x1FFF1FFF
  | _ =>
    if 0x20 ≤ i ∧ i < 0x30 then (if i % 4 = 3 then 0x00FF0070 else 0xFFFFFFFF)
    else if 0x40 ≤ i ∧ i < 0xC0 then
      (match i % 4 with | 0 => 0xFFFFF07F | 1 => 0xFFFFF000 | 2 => 0xFFFFFFFF | _ => 0xFF)
    else 0

/-! ## Reach unit (10.7) -/

/-- The device descriptor of the current world that holds a pair-local address: its physical address and permissions. -/
def reachTarget (p : Pair) (addr : Nat) : Option (Nat × Bool × Bool) :=
  match p.segOf addr with
  | none => none
  | some n =>
    let a := p.seg n 0
    if a.testBit 5 && !a.testBit 6 then some (p.segPa n addr, a.testBit 1, a.testBit 2) else none

/-- A reach slot ends with a status and, for a read, its data (Table 10-14); input 63 when irq is set. -/
def reachEnd (k slot status : Nat) (data : Option W64) (s : State) : State :=
  let s := s.modPair k fun p =>
    let i := 0x20 + 4 * slot
    let cmd := p.cx (i + 3)
    let p := p.setCx (i + 3) ((cmd &&& 0x0FFFFFFF#32) ||| BitVec.ofNat 32 (status % 8 * 2 ^ 28))
    match data with
    | some v => (p.setCx (i + 1) (v.setWidth 32)).setCx (i + 2) ((v >>> 32).setWidth 32)
    | none => p
  if ((s.pair k).cx (0x23 + 4 * slot)).getLsbD 6 then raiseCx k 63 s else s

/-- A start of op 1 or 2 on an idle slot (R439). -/
def reachStart (k slot : Nat) (write : Bool) (s : State) : State :=
  let p := s.pair k
  let i := 0x20 + 4 * slot
  let addr := (p.cx i).toNat
  let cmd := (p.cx (i + 3)).toNat
  let size := 2 ^ (cmd / 16 % 4)
  match reachTarget p addr with
  | none => reachEnd k slot 5 none s
  | some (pa, r, w) =>
    if addr % size ≠ 0 ∨ (write && !w) ∨ (!write && !r) then reachEnd k slot 5 none s
    else
      let src := svStop k
      let v := (p.cx (i + 1)).toNat + (p.cx (i + 2)).toNat * 2 ^ 32
      let busy := fun (s : State) => s.modPair k fun p =>
        p.setCx (i + 3) ((p.cx (i + 3) &&& 0x0FFFFFFF#32) ||| 0x80000000#32)
      let be := if size = 8 then cmd / 2 ^ 16 % 256 else 2 ^ size - 1
      match devTarget s src pa 0 with
      | .reg stop off =>
        busy (request (if write then .RegWr else .RegRd) (.slot k slot) .ni src stop (off / 8 * 8) 0
          (fun q => { q with arg := size, data := BitVec.ofNat 512 (if write then v * 2 ^ (8 * (off % 8)) else 0),
                             mask := w64 (be * 2 ^ (off % 8)) }) s)
      | .io n =>
        busy (request (if write then .WrPtl else .RdDev) (.slot k slot) (.io n) src (ioStop n) pa 0
          (fun q => { q with arg := size, data := BitVec.ofNat 512 (if write then v * 2 ^ (8 * (pa % 64)) else 0),
                             mask := w64 (be * 2 ^ (pa % 64)) }) s)
      | .home t =>
        busy (request (if write then .WrPtl else .RdOnce) (.slot k slot) (.home t) src (tileStop t) (pa / 64) 0
          (fun q => { q with arg := size, data := BitVec.ofNat 512 (if write then v * 2 ^ (8 * (pa % 64)) else 0),
                             mask := w64 (be * 2 ^ (pa % 64)) }) s)
      | .denied => reachEnd k slot 4 none (logKeyRefused src pa 0 s)
      | .nowhere => reachEnd k slot 1 none (logAbort src pa s)

/-- A write of CX_RCH_CMD: RW fields, RW1C collide, and the start of a request (R441). A busy slot ignores the write and sets
collide. -/
def reachCmd (k slot : Nat) (v : W32) (s : State) : State :=
  let i := 0x23 + 4 * slot
  let old := (s.pair k).cx i
  let op := v.toNat % 4
  if old.getLsbD 31 then
    (if op = 1 ∨ op = 2 then s.modPair k fun p => p.setCx i (old ||| 0x08000000#32) else s)
  else
    let keep : W32 := if v.getLsbD 27 then old &&& ~~~0x08000000#32 else old
    let s := s.modPair k fun p => p.setCx i ((keep &&& ~~~(cxMask i)) ||| (v &&& cxMask i))
    if op = 1 ∨ op = 2 then reachStart k slot (op == 2) s else s

/-- MTS of a CX_ register that the world may write. -/
def cxWriteReg (k i : Nat) (v : W32) (s : State) : State :=
  if 0x20 ≤ i ∧ i < 0x30 ∧ i % 4 = 3 then reachCmd k ((i - 0x23) / 4) v s
  else
    let m := cxMask i
    s.modPair k fun p =>
      let old := p.cx i
      p.setCx i ((old &&& ~~~m) ||| (v &&& m))

end Sys2Proof.Machine
end

