-- ==== Sys2Proof/Machine/System.lean ====
section
/-! DEFINITION. The system and cache-management instructions of main cores and of Coxswain pairs (02.9, 02.11, 03.4, 03.8,
10.3 to 10.6), and the RETW of a pair. -/

namespace Sys2Proof.Machine

/-! ## Levels and permission -/

/-- Whether a core's level is below `l`. -/
def Core.below (c : Core) (l : Level) : Bool := decide (levelNum c.level < levelNum l)

/-- An instruction of core `n` that raises `bad` of its core when it gives a code, and else has effect `f` (R89). -/
def onCoreOr (n cls : Nat) (bad : Core → Option Nat) (f : State → State) (s : State) : State :=
  onCore n (fun s => match bad (s.core n) with
    | some code => raise n cls code s
    | none => f s) s

/-- A system instruction retires and falls through. -/
def retireSys (n : Nat) (c : Core) (s : State) : State := retire n c { cls := 7 } (s.modCore n Core.advance)

/-! ## MFS and MTS (R82, R574, R643 to R645, Table 10-11) -/

/-- The exception of an access to a CX_ register: 1 ILL, 2 PRV. -/
def cxRegFault (p : Pair) (sreg : BitVec 10) (write : Bool) : Option Nat :=
  let i := sreg.toNat % 256
  if 256 ≤ sreg.toNat ∨ !cxExists i then some 1 else if p.worldT && !cxOpenT i write then some 2 else none

/-- MFS (R82, Table 10-11): a system register is read. -/
def execMfs (a : Agent) (ra : RegNo) (sreg : BitVec 10) (s : State) : Host.Outcome State Fault Refusal :=
  let lvl := sreg.toNat / 256
  let i := sreg.toNat % 256
  answer s (match a with
    | .core n => onCoreOr n 7 (fun c => sysFault c lvl i false) (fun s =>
        let c := s.core n
        retire n c { cls := 7 } (s.setCore n ((c.setG ra.toNat (sysRead c n lvl i)).afterRead i).advance)) s
    | .cx k => onPair k [] [ra] (fun s =>
        match cxRegFault (s.pair k) sreg false with
        | some code => cxTrap k code 0 s
        | none => cxResult k ra (cxRead (s.pair k) i) s) s)

/-- MTS (R82, R84, R164, R434, R580): a system register is written. -/
def execMts (a : Agent) (ra : RegNo) (sreg : BitVec 10) (s : State) : Host.Outcome State Fault Refusal :=
  let lvl := sreg.toNat / 256
  let i := sreg.toNat % 256
  answer s (match a with
    | .core n => onCoreOr n 7 (fun c => match sysFault c lvl i true with
          | some code => some code
          | none => if i == 0x2A && vsendBad c (lvl == 2) (c.getG ra.toNat) then some 2 else none)
        (fun s => let c := s.core n; retireSys n c (sysWrite n lvl i (c.getG ra.toNat) s)) s
    | .cx k => onPair k [ra] [] (fun s =>
        match cxRegFault (s.pair k) sreg true with
        | some code => cxTrap k code 0 s
        | none => (cxWriteReg k i ((s.pair k).getR ra) s).modPair k Pair.advance) s)

/-! ## Traps by instruction -/

/-- SCALL (Table 02-13, cause 0x06): trap to K; on a pair, trap within it. -/
def execScall (a : Agent) (_imm : BitVec 10) (s : State) : Host.Outcome State Fault Refusal :=
  answer s (match a with
    | .core n => coreRaise n 7 0x06 s
    | .cx k => onPair k [] [] (cxTrap k 6 0) s)

/-- HCALL (Table 02-13): trap to H; in the sealed world partition exit with the immediate as qualification, resuming after
the instruction (R98, R110, R700). -/
def execHcall (a : Agent) (imm : BitVec 10) (s : State) : Host.Outcome State Fault Refusal :=
  answer s (match a with
    | .core n => onCoreOr n 7 (fun c => if c.below .K then some 2 else none) (fun s =>
        if syncBlocked s n then s
        else match interruptDue s n with
          | some e => takeInterrupt n e.1 e.2 s
          | none =>
            let c := s.core n
            if isSealed c.world then partitionExit n 0x07 imm.toNat (c.pc + 4) (sampleUops n c { cls := 7 } 2 s)
            else raise n 7 0x07 s) s
    | .cx k => cxIll k s)

/-- FCALL (Table 02-13): trap to F from H or F; ILL in the sealed world. -/
def execFcall (a : Agent) (_imm : BitVec 10) (s : State) : Host.Outcome State Fault Refusal :=
  answer s (match a with
    | .core n => onCoreOr n 7 (fun c => if isSealed c.world then some 1 else if c.below .H then some 2 else none)
        (raise n 7 0x08) s
    | .cx k => cxIll k s)

/-- BRK (Table 02-13, cause 0x09): breakpoint. -/
def execBrk (a : Agent) (_imm : BitVec 10) (s : State) : Host.Outcome State Fault Refusal :=
  answer s (match a with
    | .core n => coreRaise n 7 0x09 s
    | .cx k => onPair k [] [] (cxTrap k 9 0) s)

/-- GATE (R105 to R109): at open H the entry of a partition, at sealed K the exit with reason 0x20; PRV elsewhere (R108). -/
def execGate (a : Agent) (rb : RegNo) (s : State) : Host.Outcome State Fault Refusal :=
  answer s (match a with
    | .core n => onCoreOr n 7 (fun c =>
          if (isSealed c.world && c.level == .K) || (!isSealed c.world && c.level == .H) then none else some 2) (fun s =>
        let c := s.core n
        if syncBlocked s n then s
        else if isSealed c.world then partitionExit n 0x20 0 (c.pc + 4) (sampleUops n c { cls := 7 } 0 s)
        else
          let x := c.getG rb.toNat
          let check := gateCheck s x
          if check = 0 then sampleUops n c { cls := 7 } 0 (enterPartition n x.toNat s) else refuseGate n check x s) s
    | .cx k => cxIll k s)

/-- The divide a TRET issues again from w13 of the window it left (R429). -/
def replayDivide (w13 : W32) (p : Pair) : Pair :=
  if !w13.getLsbD 31 then p
  else
    let op := w13.toNat / 2 ^ 29 % 4
    let rd : RegNo := BitVec.ofNat 5 (w13.toNat / 2 ^ 10)
    let r1 : RegNo := BitVec.ofNat 5 (w13.toNat / 2 ^ 5)
    let r2 : RegNo := BitVec.ofNat 5 w13.toNat
    let x := p.getR r1
    let y := p.getR r2
    { p with div := some ⟨op, rd, r1, r2, p.cwp,
        match op with | 0 => divS x y | 1 => divU x y | 2 => remS x y | _ => remU x y⟩ }

/-- R429: TRET of a pair. From window 0 it goes back to the window that was current, whose spill is retried (R422). -/
def cxReturn (k : Nat) (s : State) : State :=
  let p := s.pair k
  let w13 := p.getW p.cwp 13
  let w14 := p.getW p.cwp 14
  let w15 := p.getW p.cwp 15
  let fin := fun (s : State) => s.modPair k fun p =>
    let q := ((p.setCx 0 (w14 &&& 0xF1#32)).sync)
    replayDivide w13 { q with pc := w15 }
  if p.cwp = 0 then
    let s := fin (s.setPair k { p with cwp := p.spillRet })
    if (s.pair k).freeWins < 4 then
      (match spillFrame k s with
       | some s => s
       | none => spillFault k 0x19 s)
    else s
  else match returnWindow k s with
    | some s => fin s
    | none => spillFault k 0x1A s

/-- TRET (R102, R103, R429): return from a trap; PRV at U, when X_STATUS.pl names a level above the current one, and in
world T. -/
def execTret (a : Agent) (s : State) : Host.Outcome State Fault Refusal :=
  answer s (match a with
    | .core n => onCoreOr n 7 (fun c =>
          if c.below .K || decide (levelNum c.level < fld (c.sys c.world (levelNum c.level) 0) 5 4) then some 2 else none)
        (fun s => if syncBlocked s n then s else
          let c := s.core n
          retire n c { cls := 7 } (returnFrom n s)) s
    | .cx k => onPair k [] [] (fun s =>
        if (s.pair k).worldT then cxTrap k 2 0 s
        else if (s.pair k).div.isSome then s
        else cxReturn k s) s)

/-! ## WFI, SYNC, FENCE -/

/-- R578: the condition that ends a WFI: a vector pending and enabled in a controller at or above the current level whose
vectors the core can take in its world, whatever thr and ie hold. -/
def Core.wakes (c : Core) : Bool :=
  let has := fun (w : World) (lvl : Nat) =>
    [0, 1, 2, 3].any fun j =>
      (c.sys w lvl (0x20 + j) &&& c.sys w lvl (0x24 + j)) &&& (if j = 0 then ~~~1#64 else ~~~0#64) != 0
  (decide (levelNum c.level ≤ 2) && has .openW 2) || (decide (levelNum c.level ≤ 1) && has c.world 1)

/-- C3 entry of core `n`: dirty L2 lines are written back, clean ones leave their directory entries (Table 12-10, R173). -/
def startC3 (n : Nat) (s : State) : State :=
  ((cacheLines s (.l2 n)).foldl (fun s l => evictL2 n l.line s) s).modCore n fun c => { c with run := .c3Entry }

/-- WFI (R165, R168, R578): the SYNC effect, then the core waits with its clock gated, or goes to C3 when TC_CSTATE.deep is set
(Table 12-10); where what ends the wait holds already, it goes on after the WFI. On a pair: C-idle until an interrupt. -/
def execWfi (a : Agent) (s : State) : Host.Outcome State Fault Refusal :=
  answer s (match a with
    | .core n => onCoreOr n 7 (fun c => if c.below .K then some 2 else none) (fun s =>
        if syncBlocked s n then s
        else
          let c := s.core n
          let s := retireSys n c (syncCore n s)
          if (s.core n).wakes then s
          else if bit (s.reg .TC_CSTATE (n / 2)) (n % 2) then startC3 n s
          else s.modCore n fun c => { c with run := .feather }) s
    | .cx k => onPair k [] [] (fun s => s.modPair k fun p => { p.advance with waiting := true }) s)

/-- SYNC (R75, R83, R84, R126, R434). -/
def execSync (a : Agent) (s : State) : Host.Outcome State Fault Refusal :=
  answer s (match a with
    | .core n => onCore n (fun s =>
        if syncBlocked s n then s else let c := s.core n; retireSys n c (syncCore n s)) s
    | .cx k => onPair k [] [] (fun s => s.modPair k fun p => p.sync.advance) s)

/-- RAND (R88, R616): a RegRd of TRNG_OUT the core issues for itself; ILL when both destinations are one register other
than g0. -/
def execRand (a : Agent) (ra rb : RegNo) (s : State) : Host.Outcome State Fault Refusal :=
  answer s (match a with
    | .core n => onCoreOr n 7 (fun _ => if ra = rb ∧ ra ≠ 0 then some 1 else none) (fun s =>
        waitMem n ⟨⟨.rand ra.toNat rb.toNat, 0, 8, false, true, false⟩, .dev none, 0, 0⟩
          (request .RegRd (.core n) .ni (coreStop n) 0x72 (0x72 * 2 ^ 24 + 0x5008) 0
            (fun p => { p with arg := 8, flag := true }) s)) s
    | .cx k => cxIll k s)

/-- FENCE (R73): with prior writes before subsequent reads, retired stores become visible before a later load; every other
pair of kinds is in order already, since loads and stores leave the core in program order. A pair waits for the
responses to its stores. -/
def execFence (a : Agent) (mask : BitVec 4) (s : State) : Host.Outcome State Fault Refusal :=
  answer s (match a with
    | .core n => onCore n (fun s =>
        let c := s.core n
        retireSys n c (if mask.getLsbD 2 && mask.getLsbD 1 then drainStores n s else s)) s
    | .cx k => onPair k [] [] (fun s =>
        if mask.getLsbD 2 && mask.getLsbD 1 && s.fab.outs.any (fun o => o.who == .pair k && o.op == .WrPtl) then s
        else s.modPair k Pair.advance) s)

/-! ## Cache management (R74, R86, R87, R436) -/

/-- DC.CLEAN, DC.CLEANINV or DC.INV (0, 1, 2) of the line that holds rb. On a pair it works on the data cache: nothing, or
the line is invalidated (R436). -/
def opDc (o : Nat) (a : Agent) (rb : RegNo) (s : State) : Host.Outcome State Fault Refusal :=
  answer s (match a with
    | .core n => onCore n (fun s => issueMem n ⟨.dc o, (s.core n).getG rb.toNat, 1, false, false, false⟩ .retired s) s
    | .cx k => onPair k [rb] [] (fun s =>
        let addr := ((s.pair k).getR rb).toNat
        let hs := cxBytes s k (if o = 2 then .write else .read) addr 1
        match cxAccessTrap addr 1 hs with
        | some e => cxTrap k e.1 (BitVec.ofNat 32 e.2) s
        | none =>
          let s := cxNote k hs s
          let s := match hs with
            | .dram pa _ :: _ => if o = 0 then s else dropLine (.cxD k) (pa / 64) s
            | _ => s
          s.modPair k Pair.advance) s)

/-- DC.CLEAN (R74, R87). -/
def execDcClean (a : Agent) (rb : RegNo) (s : State) : Host.Outcome State Fault Refusal := opDc 0 a rb s

/-- DC.CLEANINV (R74, R87). -/
def execDcCleaninv (a : Agent) (rb : RegNo) (s : State) : Host.Outcome State Fault Refusal := opDc 1 a rb s

/-- DC.INV (R86): without writeback at H and F, as DC.CLEANINV at U and K. -/
def execDcInv (a : Agent) (rb : RegNo) (s : State) : Host.Outcome State Fault Refusal := opDc 2 a rb s

/-- DC.ZERO (R87): a write of all 64 bytes of the line that holds rb, ordered and durable as a store. On a pair the zeros
are a store of 64 bytes, so the data cache's line is updated (R436). -/
def execDcZero (a : Agent) (rb : RegNo) (s : State) : Host.Outcome State Fault Refusal :=
  answer s (match a with
    | .core n => onCore n (fun s =>
        issueMem n ⟨.store (byteList 64 0), (s.core n).getG rb.toNat &&& ~~~63#64, 64, false, false, false⟩ .retired s) s
    | .cx k => onPair k [rb] [] (fun s =>
        cxStore k (((s.pair k).getR rb).toNat / 64 * 64) (leBytes 64 0) s) s)

/-! ## TLBI (R125 to R127) -/

/-- The regime of the guest entries a core's TLBI acts on: its VMID, or the running partition (R125). -/
def Core.ownRegime (c : Core) : Regime :=
  match isSealed c.world, c.running with
  | true, some r => .part r.part
  | _, _ => openRegime c

/-- The entries a TLBI removes (Table 03-23): scope, regime of the issuer, ra and rb. -/
def tlbiHits (scope : Nat) (reg : Regime) (ra rb : W64) (e : TlbEnt) : Bool :=
  let va := e.va / 2 ^ e.gsize == ra.toNat / 2 ^ e.gsize
  let asid := e.asid == some (fld rb 15 0)
  let vm := decide (e.regime = .guest (fld rb 15 0))
  let open_ : Bool := match e.regime with | .part _ => false | _ => true
  match scope with
  | 0 => decide (e.regime = reg) && asid && va
  | 1 => decide (e.regime = reg) && va
  | 2 => decide (e.regime = reg) && asid
  | 3 => decide (e.regime = reg)
  | 4 => vm && e.gpa / 2 ^ e.hsize == ra.toNat / 2 ^ e.hsize
  | 5 => vm
  | 6 => open_
  | _ => decide (e.regime = .own) && va

/-- TLBI (R125 to R127): the entries of the issuing core go, or a broadcast to all 144 cores begins, which the core's next SYNC
waits for. -/
def execTlbi (a : Agent) (ra rb : RegNo) (scope : BitVec 3) (bcast : Bool) (s : State) : Host.Outcome State Fault Refusal :=
  answer s (match a with
    | .core n => onCoreOr n 7 (fun c =>
          if c.below (if scope.toNat < 4 then .K else .H) then some 2 else none) (fun s =>
        let c := s.core n
        let x := c.getG ra.toNat
        let y := c.getG rb.toNat
        let s := if bcast then
            s.modFab fun f => { f with bcasts := f.bcasts ++
              [⟨.tlbi, coreStop n, .core n, x, y, scope.toNat, c.ownRegime, (List.range 144).map .core,
                (List.range 72).map tileStop⟩] }
          else tlbDrop n (tlbiHits scope.toNat c.ownRegime x y) s
        retireSys n c s) s
    | .cx k => cxIll k s)

/-! ## RETW (Table 02-15, R420, R422) -/

/-- RETW: pc = w15, then the previous window; ILL on a main core and in window 0. -/
def execRetw (a : Agent) (s : State) : Host.Outcome State Fault Refusal :=
  answer s (match a with
    | .core n => coreRaise n 7 0x01 s
    | .cx k => onPair k [] [] (fun s =>
        let p := s.pair k
        if p.cwp = 0 then cxTrap k 1 0 s
        else
          let pc := p.getW p.cwp 15
          if pc.toNat % 4 ≠ 0 then cxTrap k 3 pc s
          else match returnWindow k s with
            | some s => s.modPair k fun p => { p with pc }
            | none => spillFault k 0x1A s) s)

end Sys2Proof.Machine
end

