-- ==== Sys2Proof/Machine/CoreEvents.lean ====
section
/-! DEFINITION. What happens to a main core beside its instructions: interrupts, partition stop, waking, TLB and L1D fills, the
drain of the store queue, held loads and prefetches (04.3 to 04.6, 05.3, 12.4). -/

namespace Sys2Proof.Machine

/-- R168: core `n` stands at a retire boundary: it runs, and its oldest instruction is no device access that has begun. -/
def atBoundary (s : State) (n : Nat) : Bool :=
  decide (n < 144) && decide ((s.core n).run = .running) &&
    (match (s.core n).wait with
     | none => true
     | some w => match w.phase with | .dev _ => false | _ => true)

/-- The interrupt that is due, if any, is taken. -/
def takeDue (n : Nat) (s : State) : State :=
  match interruptDue s n with
  | some e => takeInterrupt n e.1 e.2 s
  | none => s

/-- INTERRUPT_ENTRY (R168, R169, R575, R576). A SYNC that waits for a broadcast TLBI completes first. -/
def execInterruptEntry (n : Nat) (s : State) : Host.Outcome State Fault Refusal :=
  answer s (if atBoundary s n && !syncBlocked s n then takeDue n s else s)

/-- PARTITION_STOP_EXIT (R111): a core whose descriptor is in state 3 leaves it with reason 0x23. -/
def execPartitionStopExit (n : Nat) (s : State) : Host.Outcome State Fault Refusal :=
  answer s (match (s.core n).running with
    | some r =>
      if atBoundary s n && !syncBlocked s n && (peek s (descStateAddr r.desc) 1 0).1 == 3 then
        partitionExit n 0x23 0 (s.core n).pc s
      else s
    | none => s)

/-- A core leaving C1 or C3 takes gfrz from its tile control (R668). -/
def takeFreeze (n : Nat) (s : State) : State :=
  s.modCore n fun c => c.setErg 0x41 (setBit (c.erg 0x41) 0 (s.frozen.contains (coreStop n)))

/-- R165: a core resumes after WFI: at the vector of an interrupt it takes, else at the next instruction. -/
def resume (n : Nat) (s : State) : State := takeDue n ((takeFreeze n s).modCore n fun c => { c with run := .running })

/-- WFI_WAKE (R165, R511, R578). -/
def execWfiWake (n : Nat) (s : State) : Host.Outcome State Fault Refusal :=
  answer s (if decide (n < 144) && decide ((s.core n).run = .feather) && (s.core n).wakes then resume n s else s)

/-- The row of a core, whose rail is domain 8 + row (Table 12-1). -/
def coreRow (n : Nat) : Nat := coreStop n / 16

/-- Whether every step of a domain's bring-up is complete (Table 12-5). -/
def domainUp (s : State) (d : Nat) : Bool := s.regF .PWR_RDY (4 * d + 3) (4 * d) == 15

/-- R513: core `n` leaves C3: its rail is raised first when off, and it starts with empty predictors, TLBs and caches. -/
def leaveC3 (n : Nat) (s : State) : State :=
  let row := coreRow n
  let s := if domainUp s (8 + row) then s
    else (s.setRegF .PWR_DOM_CTL (8 + row) (8 + row) 1).setRegF .PWR_RDY (4 * (8 + row) + 3) (4 * (8 + row)) 15
  resume n (s.setRegF .TC_CSTATE (8 + n % 2) (8 + n % 2) 0 (n / 2))

/-- C3_ENTRY_COMPLETE (R512, R513): the power switch opens; an interrupt latched during entry wakes the core. -/
def execC3EntryComplete (n : Nat) (s : State) : Host.Outcome State Fault Refusal :=
  answer s (if decide (n < 144) && decide ((s.core n).run = .c3Entry) then
      let s := ((cacheLines s (.l2 n)) ++ (cacheLines s (.l1d n)) ++ (cacheLines s (.l1i n))).foldl
        (fun s l => dropCore n l.line s) s
      let s := s.modCore n fun c => { c with run := .c3, tlb := [], pred := .empty, fills := [], pfNext := [], pfStride := [],
                                             pfStream := [], quiet := [], granted := [] }
      let s := s.setRegF .TC_CSTATE (8 + n % 2) (8 + n % 2) 1 (n / 2)
      if (s.core n).wakes then leaveC3 n s else s
    else s)

/-- C3_WAKE (R513). -/
def execC3Wake (n : Nat) (s : State) : Host.Outcome State Fault Refusal :=
  answer s (if decide (n < 144) && decide ((s.core n).run = .c3) && (s.core n).wakes then leaveC3 n s else s)

/-- A walk for the fetch at the pc of core `n` ends, or the entry was at hand already: its fault, or the entry and, where the L2 has it, the line in the L1I
(R112 to R118, R162). -/
def fetchWalk (n : Nat) (s : State) : State :=
  let c := s.core n
  let ctx := coreCtx s n c.level
  let pc := c.pc.toNat
  match tlbHit s n ctx pc with
  | some _ => landing n s
  | none =>
    match translate s ctx pc .fetch with
    | .error f => raiseFault n 0 f .fetch s
    | .ok e =>
      let s := ergEvent n c 0x008 none 1 (tlbFillEnt n true e s)
      if e.mt = .device then raiseCause n 0 ⟨0x05, 2, 0, false, c.pc⟩ 0 s
      else
        let line := (e.pa + pc % 2 ^ e.size) / 64
        match hitLine s (.l1i n) line e.key, hitLine s (.l2 n) line e.key with
        | none, some l => ergEvent n c 0x009 none 1 (fillL1 n true { l with strm := false } s)
        | _, _ => s

/-- The first fault of a page under the access kinds an instruction needs, or its entry. -/
def walkAll (s : State) (ctx : XCtx) (va : Nat) : List Access → Except (XFault × Access) TlbEnt
  | [] => .error (⟨0x10, 0, false, va, 0⟩, .read)
  | [k] => match translate s ctx va k with
    | .error f => .error (f, k)
    | .ok e => .ok e
  | k :: ks => match translate s ctx va k with
    | .error f => .error (f, k)
    | .ok _ => walkAll s ctx va ks

/-- A walk for the memory instruction core `n` waits on ends: its fault, or the entry, with which the instruction goes on. -/
def dataWalk (n : Nat) (w : Wait) (s : State) : State :=
  match resolve s n w.op with
  | .miss va =>
    (match walkAll s (coreCtx s n (s.core n).level) va w.op.needs with
     | .error (f, k) => memFault n w f k s
     | .ok e => performMem n { w with tlb := 3 } (tlbFillEnt n false e s))
  | _ => performMem n w s

/-- TLB_FILL (R116, R152): the walk a core waits for, of its fetch or of its memory instruction, ends. -/
def execTlbFill (n : Nat) (fetch : Bool) (s : State) : Host.Outcome State Fault Refusal :=
  answer s (if !(decide (n < 144) && decide ((s.core n).run = .running)) then s
    else match (s.core n).wait with
      | none => if fetch then fetchWalk n s else s
      | some w => if !fetch && decide (w.phase = .walk) then dataWalk n w s else s)

/-- A store that has to be in the L1D: its lines are asked for in ownership; a store whose line no home serves is dropped and
logged (R155, R588). -/
def fetchOwned (n : Nat) (e : StoreEnt) : List Nat → State → State
  | [], s => s
  | l :: ls, s =>
    match startFill n l e.key true false (s.modCore n fun c => { c with quiet := c.quiet.filter fun q => q.1 != l }) with
    | (0, s) => fetchOwned n e ls s
    | (st, s) => storeAbort n st e.pa (s.modCore n fun c => { c with sq := c.sq.drop 1, fills := c.fills.filter fun f => f.1 != l })

/-- STORE_WRITE_L1D (R155): the oldest retired store is written when the L1D holds its lines in ownership; else they are asked
for. A store past the caches leaves the core. -/
def execStoreWriteL1d (n : Nat) (s : State) : Host.Outcome State Fault Refusal :=
  answer s (if !decide (n < 144) then s
    else match (s.core n).sq with
      | [] => s
      | e :: q =>
        let lines := ((byLine e.bytes).map Prod.fst).filter fun l => !ownsL1 s n l e.key
        if !e.dev && e.bytes.any (fun b => recovering s n (b.1 / 64)) then s
        else if e.dev ∨ lines = [] then drainOne n e (s.modCore n fun c => { c with sq := q, granted := c.granted.filter fun g => !g.2 })
        else fetchOwned n e lines s)

/-- A fill whose line has left the L2 again is asked for anew. -/
def refetch (n : Nat) (f : Nat × Nat × Bool) (s : State) : State :=
  let own : Bool := match (s.core n).wait with
    | some w => decide (w.phase = .line true)
    | none => !(s.core n).sq.isEmpty
  match requestLine n f.1 f.2.1 own s with
  | (0, s) => s
  | (st, s) => match (s.core n).wait with
    | some w => abortWait n f.1 f.2.1 st w s
    | none => abortFill n f.1 f.2.1 st s

/-- L1D_FILL (R180 to R182): the L2 delivers the first line that a fill buffer waits for and the L2 holds; the instruction that
waits for it goes on. -/
def execL1dFill (n : Nat) (s : State) : Host.Outcome State Fault Refusal :=
  answer s (if !decide (n < 144) then s
    else
      let asked := fun (l : Nat) => s.fab.outs.any fun o =>
        o.who == .core n && o.addr == l && (o.op == .RdS || o.op == .RdO || o.op == .Upg)
      match (s.core n).fills.find? fun f => (hitLine s (.l2 n) f.1 f.2.1).isSome && !asked f.1 && !recovering s n f.1 with
      | none =>
        (match (s.core n).fills.find? fun f => !asked f.1 && !recovering s n f.1 with
         | some f => refetch n f s
         | none => s)
      | some f =>
        match hitLine s (.l2 n) f.1 f.2.1 with
        | none => s
        | some l =>
          let s := s.modCore n fun c =>
            { c with fills := c.fills.filter fun x => x.1 != f.1, quiet := c.quiet.filter fun x => x.1 != f.1 }
          let s := touchLine (.l2 n) f.1 (fillL1 n false { l with strm := f.2.2 } s)
          match (s.core n).wait with
          | some w => (match w.phase with | .line _ => performMem n w s | _ => s)
          | none => s)

/-- HELD_LOAD_RELEASE (R163). -/
def execHeldLoadRelease (n : Nat) (s : State) : Host.Outcome State Fault Refusal :=
  answer s (if !(decide (n < 144) && decide ((s.core n).run = .running)) then s
    else match (s.core n).wait with
      | some w => if w.phase = .held then performMem n w s else s
      | none => s)

/-! ## Prefetches (Table 05-2, R183, R184) -/

/-- Whether two lines lie in one 4 KiB page. -/
def samePage (a b : Nat) : Bool := a / 64 == b / 64

/-- The key ID under which a prefetcher may issue a line now, if it may. -/
def Core.mayPrefetch (c : Core) (which : Prefetcher) (line : Nat) : Option Nat :=
  match which with
  | .nextLine => (c.pfNext.find? fun t => line == t.1 + 1 && samePage line t.1).map Prod.snd
  | .stride => (c.pfStride.find? fun t => t.count == 3 && [1, 2, 3, 4].any fun (k : Nat) =>
      let a : Int := (t.last : Int) + k * t.stride
      decide (0 ≤ a) && a.toNat / 64 == line && samePage line (t.last / 64)).map PfStride.key
  | .stream => (c.pfStream.find? fun t => t.count == 4 && samePage line t.last &&
      (if t.up then decide (t.last < line) && decide (line ≤ t.last + 16)
       else decide (line < t.last) && decide (t.last ≤ line + 16))).map PfStream.key

/-- The Erg case of a prefetcher (Table 16-8, PF_ISSUE). -/
def prefetchCase : Prefetcher → Nat
  | .nextLine => 0
  | .stride => 1
  | .stream => 2

/-- PREFETCH_ISSUE (R183, R184): the line the prefetcher names is asked for, when at least 8 fill buffers (of 32), or for the
stream prefetcher 8 miss trackers (of 64), are free, its page is within reach and no copy is held or on its way. -/
def execPrefetchIssue (n : Nat) (which : Prefetcher) (line : Nat) (s : State) : Host.Outcome State Fault Refusal :=
  answer s (if !decide (n < 144) then s
    else
      let c := s.core n
      let mine := s.fab.outs.filter fun o => o.who == .core n && (o.op == .RdS || o.op == .RdO || o.op == .Upg)
      let held := (findLine s (if which = .stream then .l2 n else .l1d n) line).isSome || c.fills.any (fun f => f.1 == line) ||
        mine.any fun o => o.addr == line
      match c.mayPrefetch which line with
      | none => s
      | some key =>
        let room := if which = .stream then decide (mine.length ≤ 56) else decide (c.fills.length ≤ 24)
        let home : Bool := match devTarget s (coreStop n) (line * 64) key with | .home _ => true | _ => false
        if held || !room || !home || recovering s n line then s
        else
          let s := ergEvent n c 0x00C (some (prefetchCase which)) 1 s
          let s := s.modCore n fun c =>
            { c with quiet := c.quiet ++ [(line, which == .stream)],
                     fills := if which = .stream then c.fills else c.fills ++ [(line, key, false)] }
          if (findLine s (.l2 n) line).isSome then s else (requestLine n line key false s).2)

end Sys2Proof.Machine
end

