-- ==== Sys2Proof/Machine/Home.lean ====
section
/-! DEFINITION. What happens at home slices and at L2s: requests, writebacks, snoops and their answers, background cleaning (05.5 to
05.7, R176 to R207, R228). -/

namespace Sys2Proof.Machine

/-! ## Requests -/

/-- A request packet of core `n` for a line under a key ID. -/
def fromCore (op : Op) (n line key : Nat) (p : Packet) : Bool :=
  p.op == op && decide (p.from_ = .core n) && p.addr == line && p.key == key && (match p.to_ with | .home _ => true | _ => false)

/-- The request of an L2 that is on its way reaches its home. -/
def l2Request (op : Op) (n line key : Nat) (s : State) : State :=
  arriveReq (fun p => fromCore op n line key p && sliceOpen s (sliceOf p)) homeRequest s

/-- RDS (R189). -/
def execRds (n line key : Nat) (s : State) : Host.Outcome State Fault Refusal := answer s (l2Request .RdS n line key s)

/-- RDO (R189). -/
def execRdo (n line key : Nat) (s : State) : Host.Outcome State Fault Refusal := answer s (l2Request .RdO n line key s)

/-- UPG (R189). -/
def execUpg (n line key : Nat) (s : State) : Host.Outcome State Fault Refusal := answer s (l2Request .Upg n line key s)

/-- The unit that sends requests at a stop: a core of the tile, the Sweep engine, the I/O stop, the pair. -/
def unitAt (stop : Nat) : Unit :=
  match stopKind stop with
  | some (0, t) => .core (2 * t)
  | some (1, n) => .sweep n
  | some (2, n) => .io n
  | some (_, k) => .pair k
  | none => .ni

/-- A request from a stop to the home of a line: one like it on its way, or, when none is, one that the stop sends now. -/
def homeOp (op : Op) (src line key : Nat) (like : Packet → Bool) (f : Packet → Packet) (s : State) : State :=
  if (stopKind src).isNone then s
  else
    let mk := fun (s : State) => match homeTile s src line with
      | some t => request op (unitAt src) (.home t) src (tileStop t) line key f s
      | none => logAbort src (line * 64) s
    arriveOrNew (fun p => p.op == op && p.src == src && p.addr == line && p.key == key && like p && sliceOpen s (sliceOf p) &&
      (match p.to_ with | .home _ => true | _ => false)) mk homeRequest s

/-- RDONCE (R189): current data, no change of state. -/
def execRdonce (src line key : Nat) (s : State) : Host.Outcome State Fault Refusal :=
  answer s (homeOp .RdOnce src line key (fun _ => true) id s)

/-- WRLINE (R189, R228). -/
def execWrline (src line key : Nat) (data : Line) (alloc : Bool) (s : State) : Host.Outcome State Fault Refusal :=
  answer s (homeOp .WrLine src line key (fun p => p.data == data && p.flag == alloc)
    (fun p => { p with data, flag := alloc }) s)

/-! ## Writebacks and eviction notices (R195, R196, R198) -/

/-- The home acknowledges a WBk. -/
def wbAck (t n line : Nat) (s : State) : State :=
  send (mkPacket .WBAck (tileStop t) (coreStop n) 0 line 0 (.home t) (.core n)) s

/-- Whether a snoop of a line to core `n`, or its answer WBP, has not yet come back to the home (R196). -/
def snoopOut (s : State) (n line : Nat) : Bool :=
  s.fab.net.any fun p => p.addr == line &&
    ((opClass p.op == 1 && decide (p.to_ = .core n)) || (p.op == .WBP && decide (p.from_ = .core n)))

/-- The data of a WBk with no transaction to take it: into the L3 dirty, or in Finish straight to memory (R466). -/
def applyWb (t n : Nat) (p : Packet) (s : State) : State :=
  let s' := removeHolder t p.addr n s
  let s' := if s.fab.finishLevel then memWrite t p.addr p.key p.data p.poison (dropLine (.l3 t) p.addr s')
    else fillL3 t p.addr p.key p.data p.poison true p.flag s'
  wbAck t n p.addr (shadowMsg t p.addr s s')

/-- A writeback arrives: the active transaction whose snoop to the writer is still open takes its data; else it is applied. -/
def wbArrives (n : Nat) (p : Packet) (s : State) : State :=
  let t := sliceOf p
  match activeTxn s t p.addr with
  | some x =>
    let take := fun (y : Txn) => { y with dat := some p.data, dirty := true, poison := p.poison, gone := y.gone ++ [n] }
    if x.wbFlight ∧ x.dat.isNone then stepTxn t p.addr take (wbAck t n p.addr s)
    else if snoopOut s n p.addr then stepTxn t p.addr take s
    else applyWb t n p s
  | none => applyWb t n p s

/-- A packet from core `n` concerning a line. -/
def lineFrom (op : Op) (n line : Nat) (p : Packet) : Bool := p.op == op && decide (p.from_ = .core n) && p.addr == line

/-- WBK (R189, R195, R196, R466). -/
def execWbk (n line : Nat) (s : State) : Host.Outcome State Fault Refusal :=
  answer s (arriveResp (lineFrom .WBk n line) (wbArrives n) s)

/-- A line that core `n` has forwarded as dirty while its WCln was on the way is clean once the WCln has come: the L2 takes it from
O to S, and the home, which has the data, takes the answer to its snoop as clean (log entry 14). -/
def ackCleaned (n line : Nat) (s : State) : State :=
  if s.fab.net.any fun q => q.op == .SnpAck && decide (q.from_ = .core n) && q.addr == line && q.arg == 2 then
    modLine (.l2 n) line (fun l => if l.st = .O then { l with st := .S } else l) (s.modFab fun f =>
      { f with net := f.net.map fun q =>
          if q.op = .SnpAck ∧ q.from_ = .core n ∧ q.addr = line ∧ q.arg = 2 then { q with arg := 1 } else q })
  else s

/-- The data of a WCln goes to memory; the directory takes O(R) to S, and no older L3 copy stays (log entry 14). -/
def wclnArrives (n : Nat) (p : Packet) (s : State) : State :=
  let t := sliceOf p
  if !s.homes.wbs.any (fun w => w.core == n && w.line == p.addr && w.clean) then s
  else
    let s := ackCleaned n p.addr s
    let s := s.modHomes fun h => { h with wbs := h.wbs.filter fun w => !(w.core == n && w.line == p.addr && w.clean) }
    let s := uncEvent (.tile t) 0x103 [0] 1 p.key s
    let s' := memWrite t p.addr p.key p.data p.poison (dropLine (.l3 t) p.addr s)
    let s' := match findDir s' t p.addr with
      | some (w, e) =>
        if e.st = .O ∧ e.owner = n then
          setDir t p.addr w (some { e with st := .S }) (modLine (.l2 n) p.addr (fun l => { l with st := .S }) s')
        else s'
      | none => s'
    let s' := shadowMsg t p.addr s s'
    match activeTxn s' t p.addr with
    | some x =>
      if x.wbFlight ∧ x.dat.isNone then
        stepTxn t p.addr (fun y => { y with dat := some p.data, dirty := true, poison := p.poison, gone := y.gone ++ [n] }) s'
      else s'
    | none => s'

/-- WCLN (R189, R202). -/
def execWcln (n line : Nat) (s : State) : Host.Outcome State Fault Refusal :=
  answer s (arriveResp (lineFrom .WCln n line) (wclnArrives n) s)

/-- EVC (R189): the requester leaves the directory; behind a WCln of its line it waits (log entry 14). -/
def execEvc (n line : Nat) (s : State) : Host.Outcome State Fault Refusal :=
  answer s (if (wbOf s n line).isSome then s
    else arriveReq (lineFrom .EvC n line) (fun p s =>
      shadowMsg (sliceOf p) line s (removeHolder (sliceOf p) line n s)) s)

/-- WBACK (R198): the writeback buffer entry is freed. -/
def execWback (n line : Nat) (s : State) : Host.Outcome State Fault Refusal :=
  answer s (arriveResp (fun p => p.op == .WBAck && decide (p.to_ = .core n) && p.addr == line) (fun _ s =>
    s.modHomes fun h => { h with wbs := h.wbs.filter fun w => !(w.core == n && w.line == line && !w.clean) }) s)

/-! ## Snoops and their answers (R190, R194, R198) -/

/-- R194: a snoop waits while the line has just been granted for an access of core `n` that needs nothing further. -/
def holdSnoop (s : State) (n line : Nat) : Bool :=
  let c := s.core n
  let live := fun (store : Bool) => if store then !c.sq.isEmpty
    else match c.wait with | some w => (match w.phase with | .line _ => true | _ => false) | none => false
  (c.granted.any (fun g => g.1 == line && live g.2) &&
    !s.fab.outs.any fun o => decide (o.who = .core n) && asksLine o.op && !c.quiet.any fun q => q.1 == o.addr) ||
  s.fab.outs.any fun o => decide (o.who = .core n) && o.addr == line && !o.held && grantComing s o

/-- A snoop of a line reaches core `n`'s L2, which answers it. -/
def l2Snoop (op : Op) (n line : Nat) (s : State) : State :=
  if holdSnoop s n line || recovering s n line then s
  else arriveReq (fun p => p.op == op && decide (p.to_ = .core n) && p.addr == line) (answerSnoop n) s

/-- SNPS (R189, R194). -/
def execSnps (n line : Nat) (s : State) : Host.Outcome State Fault Refusal := answer s (l2Snoop .SnpS n line s)

/-- SNPIF (R189, R194). -/
def execSnpif (n line : Nat) (s : State) : Host.Outcome State Fault Refusal := answer s (l2Snoop .SnpIF n line s)

/-- SNPI (R189, R194). -/
def execSnpi (n line : Nat) (s : State) : Host.Outcome State Fault Refusal := answer s (l2Snoop .SnpI n line s)

/-- SNPONCE (R189, R194). -/
def execSnponce (n line : Nat) (s : State) : Host.Outcome State Fault Refusal := answer s (l2Snoop .SnpOnce n line s)

/-- WBP (R198): the home marks a writeback in flight; one that has come already is acknowledged now. -/
def execWbp (n line : Nat) (s : State) : Host.Outcome State Fault Refusal :=
  answer s (arriveResp (lineFrom .WBP n line) (fun p s =>
    let t := sliceOf p
    let s := uncEvent (.tile t) 0x104 [4] 1 p.key s
    match activeTxn s t line with
    | some x =>
      stepTxn t line (fun y => { y with acks := y.acks - 1, wbFlight := true })
        (if x.dat.isSome then wbAck t n line s else s)
    | none => s) s)

/-- What a SnpAck tells the active transaction: 0 no copy, 1 and 2 data forwarded, 3 invalidated. -/
def Txn.acked (x : Txn) (n code : Nat) : Txn :=
  match code with
  | 0 => { x with acks := x.acks - 1, gone := x.gone ++ [n] }
  | 1 => { x with acks := x.acks - 1, sentDat := true }
  | 2 => { x with acks := x.acks - 1, sentDat := true, dirty := true }
  | _ => { x with acks := x.acks - 1 }

/-- SNPACK (R189). -/
def execSnpack (n line : Nat) (s : State) : Host.Outcome State Fault Refusal :=
  answer s (arriveResp (lineFrom .SnpAck n line) (fun p s => stepTxn (sliceOf p) line (fun x => x.acked n p.arg) s) s)

/-- SNPDAT (R189, R196). -/
def execSnpdat (n line : Nat) (s : State) : Host.Outcome State Fault Refusal :=
  answer s (arriveResp (lineFrom .SnpDat n line) (fun p s => stepTxn (sliceOf p) line (fun x =>
    { x with acks := x.acks - 1, dat := some p.data, dirty := p.flag, poison := p.poison }) s) s)

/-! ## Background cleaning (R203 to R205) -/

/-- One dirty line of a cache becomes clean: WCln from an L2, MemWr from an L3 slice. -/
def cleanOne (c : CacheId) (line : Nat) (s : State) : State :=
  match c with
  | .l2 n =>
    (match mergedL2 s n line with
     | none => s
     | some l =>
       let st : Moesi := if l.st = .O then .S else .E
       writeBack n { l with st } true (modLine (.l2 n) line (fun x => { x with data := l.data, poison := l.poison, st })
         (modLine (.l1d n) line (fun d => { d with st := .S }) s)))
  | .l3 t =>
    (match findLine s (.l3 t) line with
     | none => s
     | some (_, l) =>
       uncEvent (.tile t) 0x103 [1] 1 l.key (shadowMsg t line s
         (memWrite t line l.key l.data l.poison (modLine (.l3 t) line (fun x => { x with st := .E }) s))))
  | _ => s

/-- Whether a cached line counts as dirty (R201). -/
def CLine.dirty (l : CLine) : Bool := decide (l.st = .M ∨ l.st = .O)

/-- A pass over the dirty lines of a cache in ascending order of sets, until the count is at or below 3/4 of the limit. -/
def cleanPass (c : CacheId) (ls : List CLine) (s : State) : State :=
  ls.foldl (fun s l => if dirtyCount s c * 4 ≤ dirtyLimit s c * 3 then s else cleanOne c l.line s) s

/-- BACKGROUND_CLEAN (R203, R205): a cache above 7/8 of its limit cleans to 3/4 of it, lines of age 2 and 3 first. -/
def execBackgroundClean (c : CacheId) (s : State) : Host.Outcome State Fault Refusal :=
  let here : Bool := match c with
    | .l2 n => decide (n < 144)
    | .l3 t => decide (t < 72)
    | _ => false
  answer s (if !here || !decide (dirtyLimit s c * 7 < dirtyCount s c * 8) then s
    else
      let dirty := fun (s : State) => (cacheLines s c).filter CLine.dirty
      let s := cleanPass c ((dirty s).filter fun l => decide (2 ≤ l.age)) s
      cleanPass c (dirty s) s)

end Sys2Proof.Machine
end

