-- ==== Sys2Proof/Machine/Responses.lean ====
section
/-! DEFINITION. Completions and data that reach a requester (05.4 to 05.6, 06.2, 10.6, 10.7, 14.2). -/

namespace Sys2Proof.Machine

/-! ## Fills of a core (R157, R189, R194, R589) -/

/-- Whether core `n` waits for a line, to read it or to own it. -/
def waitsLine (s : State) (n line : Nat) : Bool :=
  match (s.core n).wait with
  | some w => (match w.phase, resolve s n w.op with
    | .line _, .ok bs => (linesOf bs).any fun l => l.1 == line
    | _, _ => false)
  | none => false

/-- Whether the oldest retired store of core `n` has bytes in a line. -/
def storeNeeds (s : State) (n line : Nat) : Bool :=
  match (s.core n).sq with
  | e :: _ => !e.dev && e.bytes.any fun b => b.1 / 64 == line
  | [] => false

/-- The oldest retired store of core `n` is dropped and logged (R588). -/
def dropStore (n status : Nat) (s : State) : State :=
  match (s.core n).sq with
  | e :: q => storeAbort n status e.pa (s.modCore n fun c => { c with sq := q })
  | [] => s

/-- A fill that receives a non-zero status: no cache keeps it (R589). The instruction that waits for it consumes the poison; a
store that waits for it is dropped. A line asked for only ahead of need is forgotten. -/
def fillAborted (n line key status : Nat) (s : State) : State :=
  if (s.core n).quiet.any fun q => q.1 == line then
    s.modCore n fun c => { c with fills := c.fills.filter fun f => f.1 != line, quiet := c.quiet.filter fun q => q.1 != line }
  else if waitsLine s n line then
    (match (s.core n).wait with
     | some w => abortWait n line key status w s
     | none => s)
  else if storeNeeds s n line then
    dropStore n status (s.modCore n fun c => { c with fills := c.fills.filter fun f => f.1 != line })
  else abortFill n line key status s

/-- The directory entry of a line records the way its owner's L2 has put it in (R175). -/
def noteWay (n line : Nat) (s : State) : State :=
  match homeTile s (coreStop n) line, findLine s (.l2 n) line with
  | some t, some (way, _) =>
    (match findDir s t line with
     | some (w, e) => if e.owner = n then setDir t line w (some { e with way }) s else s
     | none => s)
  | _, _ => s

/-- A granted line that an access of core `n` waits for holds snoops until that access is done (R194). -/
def noteGranted (n line : Nat) (s : State) : State :=
  if waitsLine s n line then s.modCore n fun c => { c with granted := c.granted ++ [(line, false)] }
  else if storeNeeds s n line then s.modCore n fun c => { c with granted := c.granted ++ [(line, true)] }
  else s

/-- The source code of the data is noted for the instruction that waits for it (Table 16-4). -/
def noteSource (n line src : Nat) (s : State) : State :=
  if waitsLine s n line then s.modCore n fun c => { c with wait := c.wait.map fun w => { w with src } } else s

/-- Line data granted to core `n`'s L2. -/
def fillArrives (n : Nat) (p : Packet) (st : Moesi) (s : State) : State :=
  let c := s.core n
  let l2Only := c.quiet.any fun q => q.1 == p.addr && q.2
  let strm := c.fills.any fun f => f.1 == p.addr && f.2.2
  let s := fillL2 n ⟨p.addr, p.key, st, p.data, p.poison, 1, strm⟩ s
  let s := if l2Only then s.modCore n fun c => { c with quiet := c.quiet.filter fun q => q.1 != p.addr } else s
  noteGranted n p.addr (noteSource n p.addr p.arg (noteWay n p.addr s))

/-- A line that core `n` holds is granted to it in M. Clean before and the L2 at its limit, it is cleaned at once (R202). -/
def ownGranted (n : Nat) (p : Packet) (s : State) : State :=
  match findLine s (.l2 n) p.addr with
  | none => s
  | some (_, l) =>
    let s := if (l.st = .E ∨ l.st = .S) ∧ atLimit s (.l2 n) then
        writeBack n { l with st := .E } true (modLine (.l2 n) p.addr (fun x => { x with st := .E }) s)
      else modLine (.l2 n) p.addr (fun x => { x with st := .M }) s
    noteGranted n p.addr (noteWay n p.addr s)

/-! ## Device and non-cacheable answers of a core (R64, R587) -/

/-- The device or register read a core waits for ends: with cause 0x18 (R587) or 0x17, the second half of an LDP, or its value. -/
def deviceArrives (n status : Nat) (v : W64) (poison : Bool) (pa key : Nat) (s : State) : State :=
  match (s.core n).wait with
  | none => s
  | some w =>
    match w.phase with
    | .dev first =>
      if status ≠ 0 then raiseCause n w.op.cls ⟨0x18, 0, 0, false, w.op.va⟩ 0 s
      else if poison then consumePoison n w pa key s
      else (match w.op.kind, first with
        | .loadPair _, none => readDevice n (pa + 8) 8 key { w with phase := .dev (some v) } s
        | .loadPair rt, some a => finishMem n w (fun c => (c.setG rt a).setG (rt + 1) v) s
        | .load rt se, _ => finishMem n w (fun c => c.setG rt (extend w.op.size se v)) s
        | .rand ra rb, _ => finishMem n w (fun c => (c.setG ra v).setG rb 1) s
        | _, _ => finishMem n w id s)
    | _ => s

/-- The physical address an outstanding read asks for: a line's own address, or a device's. -/
def Out.pa (o : Out) : Nat := match o.op with | .RdDev | .RegRd | .RegWr => o.addr | _ => o.addr * 64

/-- The offset in its line of what core `n` waits for. -/
def waitOff (s : State) (n : Nat) : Nat :=
  match (s.core n).wait with
  | some w => (w.op.va.toNat + (match w.phase with | .dev (some _) => 8 | _ => 0)) % 64
  | none => 0

/-! ## Responses by requester -/

/-- Whether core `n` can take an answer that ends in an exception now: not while a broadcast TLBI of it is under way. -/
def answerWaits (s : State) (o : Out) (p : Packet) : Bool :=
  match o.who with
  | .core n => ((p.status != 0 || p.poison) && syncBlocked s n) || (asksLine o.op && recovering s n o.addr)
  | .pair k => !pairAlive s k && p.op == .DatRd
  | _ => false

/-- R215, R219: a grant of a line waits for the shadow increment and the snoop of the other socket that it owes. -/
def grantWaits (s : State) (p : Packet) : Bool :=
  (s.fab.net.any fun q => q.op == .ShInc && q.addr == p.addr) ||
    (match memOf s 0x02 p.addr with
     | some (ch, _) => (s.mc ch).remoteSnoops.any fun r => r.1 == p.addr
     | none => false)

/-- A response with a transaction number reaches its stop: matched by an outstanding request of `ops`, it acts and the request
ends; one that matches none, or a held number, is discarded and logged (R263). -/
def respond (op : Op) (ops : List Op) (stop tid : Nat) (f : Out → Packet → State → State) (s : State) : State :=
  let mine := fun (p : Packet) => p.op == op && p.dst == stop && p.tid == tid
  match s.fab.net.find? mine, findOut s stop tid with
  | none, none => if (stopKind stop).isSome then unexpected stop tid 0 s else s
  | none, some _ => s
  | some p, o =>
    match o with
    | none => arriveResp mine (fun p s => unexpected stop tid p.src s) s
    | some o =>
      if o.held || !ops.contains o.op then arriveResp mine (fun p s => unexpected stop tid p.src s) s
      else if answerWaits s o p || grantWaits s p then s
      else arriveResp mine (fun p s => f o p (dropOut stop tid s)) s

/-- Line data in a state reaches the L2 that asked for it. -/
def respondFill (op : Op) (st : Moesi) (stop tid : Nat) (s : State) : State :=
  respond op [.RdS, .RdO, .Upg] stop tid (fun o p s => match o.who with
    | .core n => if p.status ≠ 0 then fillAborted n p.addr p.key p.status s else fillArrives n p st s
    | _ => s) s

/-- DATS (R189). -/
def execDats (stop tid : Nat) (s : State) : Host.Outcome State Fault Refusal := answer s (respondFill .DatS .S stop tid s)

/-- DATE (R189). -/
def execDate (stop tid : Nat) (s : State) : Host.Outcome State Fault Refusal := answer s (respondFill .DatE .E stop tid s)

/-- DATM (R189). -/
def execDatm (stop tid : Nat) (s : State) : Host.Outcome State Fault Refusal := answer s (respondFill .DatM .M stop tid s)

/-- CMPM (R189): the L2 owns its copy, without data. -/
def execCmpm (stop tid : Nat) (s : State) : Host.Outcome State Fault Refusal :=
  answer s (respond .CmpM [.Upg] stop tid (fun o p s => match o.who with
    | .core n => ownGranted n p s
    | _ => s) s)

/-- A reach slot's response (R440): its status and, for a read that is done, the bytes asked for. -/
def slotAnswer (k i : Nat) (o : Out) (p : Packet) (s : State) : State :=
  let a := ((s.pair k).cx (0x20 + 4 * i)).toNat
  let size := 2 ^ (((s.pair k).cx (0x23 + 4 * i)).toNat / 16 % 4)
  let off := match o.op with | .RegRd => a % 8 | _ => a % 64
  match o.op with
  | .RdDev | .RegRd | .RdOnce =>
    reachEnd k i p.status (if p.status = 0 then some (w64 (p.data.toNat / 2 ^ (8 * off) % 2 ^ (8 * size))) else none) s
  | _ => reachEnd k i p.status none s

/-- CMP (R233, R588, R589): a write is done, or an upgrade was aborted; a non-zero status of a main core's store is logged. -/
def execCmp (stop tid : Nat) (s : State) : Host.Outcome State Fault Refusal :=
  answer s (respond .Cmp [.WrPtl, .WrLine, .Upg, .DcOp, .EvC] stop tid (fun o p s => match o.who with
    | .core n =>
      if p.status = 0 then s
      else if o.op = .Upg then fillAborted n o.addr o.key p.status s
      else storeAbort n p.status (match o.dst with
        | d => if (stopKind d).any (fun k => k.1 == 2) then o.addr else o.addr * 64) s
    | .slot k i => slotAnswer k i o p s
    | _ => s) s)

/-- Line or device data for a home's own read of memory: the transaction that waits for it goes on. -/
def homeArrives (t : Nat) (o : Out) (p : Packet) (s : State) : State :=
  match s.homes.txns.find? (fun x => x.slice == t && x.mem && x.req.addr == o.addr) with
  | none => s
  | some x =>
    let y := { x with mem := false, dat := some p.data, poison := p.poison || p.status != 0 }
    runSlice t (tryFinish y (setTxn x y s))

/-- DATRD (R64, R189, R437, R587, R589): data without state, for a device or non-cacheable load, a pair or its caches, a reach
slot, or a home. -/
def execDatrd (stop tid : Nat) (s : State) : Host.Outcome State Fault Refusal :=
  answer s (respond .DatRd [.RdOnce, .RdDev, .MemRd, .RdS, .RdO, .Upg] stop tid (fun o p s => match o.who with
    | .core n =>
      if asksLine o.op then fillAborted n o.addr o.key p.status s
      else
        let off := if o.op = .RdDev then o.addr % 64 else waitOff s n
        let pa := if o.op = .RdDev then o.addr else o.addr * 64 + off
        deviceArrives n p.status (w64 (p.data.toNat >>> (8 * off))) p.poison pa o.key s
    | .pairCache k icache =>
      let bad := p.status != 0
      let s := if bad then record (.sv k) { mkRec .deferred (svStop k) 0x50 0x05 p.status with
          addr := some (errAddr 0 (o.addr * 64)) } s else s
      s.modPair k fun q => { q with fills := q.fills ++ [⟨icache, o.addr, p.data, p.poison || bad, bad⟩] }
    | .pair k =>
      let bad := p.status != 0
      let s := if bad then record (.sv k) { mkRec .deferred (svStop k) 0x50 0x05 p.status with
          addr := some (errAddr 0 (o.addr * 64)) } s else s
      (match (s.pair k).wait with
       | some w => cxLoad k w.rd w.addr w.size w.sext (w.got ++ [(o.addr, p.data, p.poison || bad)]) s
       | none => s)
    | .slot k i => slotAnswer k i o p s
    | .home t => homeArrives t o p s
    | _ => s) s)

end Sys2Proof.Machine
end

