-- ==== Sys2Proof/Machine/Routes.lean ====
section
/-! DEFINITION. Routes past bypassed routers: what an NI accepts and what its entries hold after a reset (06.5). -/

namespace Sys2Proof.Machine

/-- Whether the router of a stop is bypassed (Table 06-9). -/
def bypassed (s : State) (stop : Nat) : Bool :=
  let n := s.regF .FAB_BYPASS 17 16
  (decide (1 ≤ n) && stop == s.regF .FAB_BYPASS 7 0) || (n == 2 && stop == s.regF .FAB_BYPASS 15 8)

/-- The stop at which a route that goes along a row first, or along a column first, turns; none when it does not. -/
def turnOf (xy : Bool) (a b : Nat) : Option Nat :=
  if a / 16 = b / 16 ∨ a % 16 = b % 16 then none
  else some (if xy then stopAt (a / 16) (b % 16) else stopAt (b / 16) (a % 16))

/-- Whether a route of a kind turns at a bypassed stop. -/
def turnsBad (s : State) (src d kind wp : Nat) : Bool :=
  let bad := fun (t : Option Nat) => match t with | some x => bypassed s x | none => false
  match kind with
  | 0 => bad (turnOf true src d)
  | 1 => bad (turnOf false src d)
  | 2 => bad (turnOf true src wp) || bad (turnOf false wp d)
  | _ => false

/-- R244: the code under which an NI rejects an entry; 0 when it takes it. -/
def routeReject (s : State) (stop d : Nat) (v : W64) : Nat :=
  let kind := fld v 1 0
  let wp := fld v 15 8
  let none_ := fun x => (stopKind x).isNone || bypassed s x
  if none_ d ∧ kind ≠ 3 then 1
  else if d = stop ∧ kind ≠ 0 then 2
  else if kind ≠ 2 ∧ wp ≠ 0 then 3
  else if kind = 2 ∧ (none_ wp ∨ wp = stop ∨ wp = d) then 4
  else if turnsBad s stop d kind wp then 5
  else 0

/-- The default kind of an entry (R243). -/
def defaultKind (s : State) (stop d : Nat) : Nat :=
  if (stopKind d).isNone || bypassed s d then 3
  else if !turnsBad s stop d 0 0 then 0
  else if !turnsBad s stop d 1 0 then 1
  else 3

/-- Every NI sets its entries to the defaults, and bypassed stops are out of service (R242, R243). With no router bypassed the
entries' Cold values are the defaults. -/
def defaultRoutes (s : State) : State :=
  if s.regF .FAB_BYPASS 17 16 = 0 then s
  else allStops.foldl (fun s p => (List.range 256).foldl (fun s d => s.setReg .NI_RT (w64 (defaultKind s p d)) p d) s) s

/-- The waypoint routes that an entry may take. -/
def waypoints (s : State) (stop d : Nat) : List Nat :=
  allStops.filter fun wp => routeReject s stop d (w64 (wp * 256 + 2)) == 0

/-- CX0 writes a waypoint route into every entry left at kind 3 for a stop that is in service (R243): any that the NI takes. -/
def routeAround (s : State) : State :=
  allStops.foldl (fun s p => allStops.foldl (fun s d =>
    if s.regF .NI_RT 1 0 p d = 3 && bit (s.reg .STOP_ID d) 32 then
      (match waypoints s p d with
       | [] => s
       | w :: ws =>
         let x := s.draw
         x.2.setReg .NI_RT (w64 ((w :: ws).getD (x.1.toNat % (ws.length + 1)) w * 256 + 2)) p d)
    else s) s) s

end Sys2Proof.Machine
end

