-- ==== Sys2Proof/Machine/Fabric.lean ====
section
/-! DEFINITION. The Trelwaid fabric: routers, routes, ports, probes, watchdogs, fences and acknowledgements (chapter 06). -/

namespace Sys2Proof.Machine

/-! ## Records of an NI (Table 14-19) -/

/-- A record of an NI: class, type, and the kind or status and peer of its info field. -/
def niRecord (stop : Nat) (cls : ErrClass) (type code peer : Nat) (s : State) : State :=
  record (.fabric stop) (mkRec cls stop 0x20 type (code % 8 * 2 ^ 8 + peer % 256)) s

/-! ## Routes (R244, R245) -/

/-- A write of a route entry (R244, R245). -/
def writeRoute (r : Req) (stop d : Nat) (v : W64) (s : State) : State :=
  if !(isF r || r == .cx 0) then refuse (.fabric stop) stop r s
  else
    let code := routeReject s stop d v
    if code = 0 then s.writeReg .NI_RT v stop d
    else s.setReg .NI_RT_STATUS (w64 (d % 256 * 2 ^ 8 + 8 + code)) stop

/-- NI_RT_WRITE (R244, R245). -/
def execNiRtWrite (r : Req) (stop d : Nat) (v : W64) (s : State) : Host.Outcome State Fault Refusal :=
  answer s (if (stopKind stop).isSome && decide (d < 256) then writeRoute r stop d v s else s)

/-- The neighbour of a stop in a direction, past bypassed routers, of which no two lie together in a row or column (R242). -/
def neighbour (s : State) (stop : Nat) (dir : PortDir) : Option Nat :=
  let step := fun (x : Nat) => match dir with
    | .north => if x / 16 = 0 then none else some (x - 16)
    | .south => if 7 ≤ x / 16 then none else some (x + 16)
    | .west => if x % 16 = 0 then none else some (x - 1)
    | .east => if 12 ≤ x % 16 then none else some (x + 1)
    | .own => none
  match step stop with
  | none => none
  | some x => if bypassed s x then step x else some x

/-- The input at which a flit that leaves in a direction arrives. -/
def farInput : PortDir → PortDir
  | .north => .south
  | .south => .north
  | .east => .west
  | .west => .east
  | .own => .own

/-- The number of an input: 0 local, 1 N, 2 E, 3 S, 4 W (Table 06-19). -/
def portNum : PortDir → Nat
  | .own => 0
  | .north => 1
  | .east => 2
  | .south => 3
  | .west => 4

/-- R241: the output a flit takes at a router, and the flit as it leaves: at its waypoint it changes virtual network. -/
def routeFlit (stop : Nat) (f : Flit) : PortDir × Flit :=
  let f := if f.wpt && f.wp.toNat == stop then { f with wpt := false, vn := true } else f
  let d := if f.wpt then f.wp.toNat else f.dst.toNat
  let x : Option PortDir := if d % 16 < stop % 16 then some .west else if stop % 16 < d % 16 then some .east else none
  let y : Option PortDir := if d / 16 < stop / 16 then some .north else if stop / 16 < d / 16 then some .south else none
  (match f.vn, x, y with
   | false, some o, _ => o
   | false, none, some o => o
   | true, _, some o => o
   | true, some o, none => o
   | _, none, none => .own, f)

/-- R248: the links on which a stop replicates a broadcast from `src` that came in at `inp`. -/
def bcastOuts (s : State) (stop src : Nat) (inp : PortDir) : List PortDir :=
  let r := stop / 16
  let c := stop % 16
  let sr := src / 16
  let main : List PortDir := match inp with
    | .own => [.north, .east, .south, .west]
    | .west => if r = sr then [.east, .north, .south] else []
    | .east => if r = sr then [.west, .north, .south] else []
    | .north => [.south]
    | .south => [.north]
  let holes := (List.range 13).filter fun k => bypassed s (stopAt sr k)
  let extra : List PortDir := if r = sr ∨ inp = .east ∨ inp = .west then []
    else holes.flatMap fun k =>
      if k ≠ 1 then
        (if c + 1 = k then [PortDir.east] else if c = k + 1 ∧ bypassed s (stopAt r (k - 1)) then [.west] else [])
      else
        (if c = k + 1 then [PortDir.west] else if c + 1 = k ∧ bypassed s (stopAt r (k + 1)) then [.east] else [])
  main ++ extra

/-! ## Flits and packets (Tables 06-3, 06-5) -/

/-- The opcode of a flit. -/
def flitOp (f : Flit) : Option Op :=
  if f.plane = 2 then
    (match f.op.toNat with
     | 0x08 => some .SamUpd | 0x09 => some .Tlbi | 0x0A => some .PotInv | 0x0B => some .TagRecov
     | 0x10 => some .RegRd | 0x11 => some .RegWr | 0x12 => some .Intr | 0x13 => some .Fence
     | 0x18 => some .RegCmp | 0x19 => some .BcAck | 0x1A => some .FenceMark
     | _ => none)
  else
    (match f.op.toNat with
     | 0x00 => some .RdS | 0x01 => some .RdO | 0x02 => some .Upg | 0x03 => some .EvC | 0x04 => some .RdOnce
     | 0x05 => some .WrLine | 0x06 => some .WrPtl | 0x07 => some .RdDev | 0x08 => some .MemRd | 0x09 => some .MemWr
     | 0x10 => some .SnpS | 0x11 => some .SnpIF | 0x12 => some .SnpI | 0x13 => some .SnpOnce | 0x14 => some .ShInc
     | 0x15 => some .ShDec | 0x20 => some .Cmp | 0x21 => some .CmpM | 0x22 => some .WBP | 0x23 => some .SnpAck
     | 0x24 => some .WBAck | 0x25 => some .FenceMark | 0x30 => some .DatS | 0x31 => some .DatE | 0x32 => some .DatM
     | 0x33 => some .DatRd | 0x34 => some .WBk | 0x35 => some .WCln | 0x36 => some .SnpDat
     | _ => none)

/-- Whether a flit travels on a request channel. -/
def flitRequest (f : Flit) : Bool := if f.plane = 2 then f.chan == 1 else f.chan == 0

/-- Whether a home, not an L2, takes or sends an opcode at a tile. -/
def homeTakes (op : Op) : Bool :=
  match op with
  | .RdS | .RdO | .Upg | .EvC | .RdOnce | .WrLine | .WrPtl | .WBP | .SnpAck | .WBk | .WCln | .SnpDat => true
  | _ => false

/-- The unit of a stop that an opcode is for. -/
def flitTo (s : State) (stop : Nat) (op : Op) (line : Nat) : Unit :=
  match stopKind stop with
  | some (0, t) =>
    if homeTakes op then .home t
    else if (findLine s (.l2 (2 * t + 1)) line).isSome then .core (2 * t + 1) else .core (2 * t)
  | some (1, n) => .mc n
  | some (2, n) => .io n
  | some (_, _) => .ni
  | none => .ni

/-- The fence-mark channel of a flit: data planes, response and data, both virtual networks; 8 on the control plane (R262). -/
def markOf (f : Flit) : Nat := if f.plane = 2 then 8 else f.plane.toNat * 4 + (if f.chan = 3 then 2 else 0) + f.vn.toNat

/-- The packet that a flit carries to its stop; `mask` is that of a WrPtl's second flit. -/
def flitPacket (s : State) (f : Flit) (op : Op) (mask : W64) : Packet :=
  let dst := f.dst.toNat
  let src := f.src.toNat
  let off := f.addr.toNat % 2 ^ 24
  let addr := if f.plane = 2 then dst * 2 ^ 24 + off
    else if op = .RdDev then f.addr.toNat * 64 + fld (f.payload.setWidth 64) 5 0 else f.addr.toNat
  { mkPacket op src dst f.tid.toNat addr f.key.toNat (unitAt src) (flitTo s dst op f.addr.toNat) with
    status := f.status.toNat, poison := f.poison, fin := f.fin, flag := f.alloc, data := f.payload
    mask := if op = .RegWr then w64 f.be.toNat else mask
    arg := match op with
      | .RdDev => 2 ^ fld (f.payload.setWidth 64) 9 8
      | .RegRd | .RegWr => 8
      | .FenceMark => markOf f
      | _ => 0 }

/-- The answer of a destination NI to a request: none for those that expect no response. -/
def niAnswer (p : Packet) (status : Nat) (s : State) : State :=
  match p.op with
  | .EvC | .MemWr | .Intr | .Fence | .FenceMark => s
  | _ => send (abortReply p status) s

/-- The answer to a request with an opcode that no table assigns (R231). -/
def answerUnassigned (f : Flit) (s : State) : State :=
  let op : Op := if f.plane = 2 then .RegCmp else .Cmp
  send { mkPacket op f.dst.toNat f.src.toNat f.tid.toNat f.addr.toNat 0 .ni (unitAt f.src.toNat) with status := 4 } s

/-- A packet is in its island's hands: the commands of its opcode act on it. A packet already on its way is the same one. -/
def handOver (p : Packet) (s : State) : State :=
  if s.fab.net.any fun q => q.op == p.op && q.src == p.src && q.dst == p.dst && q.tid == p.tid && q.addr == p.addr then s
  else send p s

/-- A flit at a port in RUN crosses; the first flit of a WrPtl waits for the second (R229). -/
def crossFlit (f : Flit) (op : Op) (s : State) : State :=
  if op = .WrPtl then
    if f.more then s.modFab fun b => { b with halves := b.halves ++ [f] }
    else match s.fab.halves.find? fun h => h.src == f.src && h.dst == f.dst && h.tid == f.tid && h.vn == f.vn with
      | none => s
      | some h =>
        handOver (flitPacket s h op (f.payload.setWidth 64)) (s.modFab fun b => { b with halves := b.halves.erase h })
  else handOver (flitPacket s f op 0) s

/-- A flit addressed to this stop (R229 to R231, R233, R253, R254). NI messages (Fence, FenceMark) go to the NI whatever the
port's state; a broadcast is taken up by the command of its kind. -/
def deliverFlit (stop : Nat) (f : Flit) (s : State) : State :=
  match flitOp f with
  | none =>
    let s := niRecord stop .uncorrected 0x08 0 f.src.toNat s
    if flitRequest f then answerUnassigned f s else s
  | some op =>
    let s := if f.plane ≠ 2 ∧ !f.dchkOk then niRecord stop .deferred 0x07 0 f.src.toNat s else s
    let f := if f.plane ≠ 2 ∧ !f.dchkOk then { f with poison := true } else f
    let bad := 5 ≤ f.status.toNat
    let s := if bad then niRecord stop .uncorrected 0x08 f.status.toNat f.src.toNat s else s
    let f := if bad then { f with status := 4 } else f
    if f.plane = 2 ∧ (f.chan = 0 ∨ f.dst = 0xFF) then s
    else if op = .Fence ∨ op = .FenceMark then handOver (flitPacket s f op 0) s
    else
      let hold := fun (s : State) =>
        s.modFab fun b => { b with heldFlits := NMap.set [] b.heldFlits stop (NMap.get [] b.heldFlits stop ++ [f]) }
      match s.regF .NI_PORT 2 0 stop with
      | 0 => crossFlit f op s
      | 1 => hold (s.setRegF .NI_PORT 2 0 2 stop)
      | 2 => hold s
      | st =>
        if flitRequest f then (if f.more then s else niAnswer (flitPacket s f op 0) (if st = 5 then 3 else 2) s)
        else s.bumpReg .NI_PORT 31 16 stop

/-! ## Probes (06.9) -/

/-- Whether a probe matches a flit at an input (R268, R269); a WrPtl counts by its first flit. -/
def probeMatch (s : State) (stop : Nat) (inp : PortDir) (f : Flit) : Bool :=
  let c := s.reg .PRB_CTL stop
  let m := s.reg .PRB_MATCH stop
  let same := fun (x v mask : Nat) => (x ^^^ v) &&& mask == 0
  bit c (19 + portNum inp) && bit c (16 + f.plane.toNat) && bit c (14 + f.vn.toNat) && bit c (10 + f.chan.toNat) &&
    same f.src.toNat (fld m 63 56) (fld m 55 48) && same f.dst.toNat (fld m 47 40) (fld m 39 32) &&
    same f.op.toNat (fld m 31 26) (fld m 25 20) &&
    (!bit c 4 || (f.plane != 2 && decide (s.regF .PRB_ALO 51 6 stop ≤ f.addr.toNat) &&
      decide (f.addr.toNat ≤ s.regF .PRB_AHI 51 6 stop))) &&
    (f.key == 0 || f.plane == 2 || (bit (s.reg .SEC_DBG_EN) 3 && fld (s.reg .SEC_DBG_EN) 31 16 == 0)) &&
    !(f.plane != 2 && f.op == 0x06 && !f.more)

/-- The two words of a trace record (Table 06-25); the stamp is the island's clock count, a free value. -/
def traceWords (stamp : Nat) (inp : PortDir) (f : Flit) (lost : Bool) : W64 × W64 :=
  (w64 (stamp % 2 ^ 32 * 2 ^ 32 + f.src.toNat * 2 ^ 24 + f.dst.toNat * 2 ^ 16 + f.op.toNat * 2 ^ 10 + f.chan.toNat * 2 ^ 8
    + f.vn.toNat * 2 ^ 7 + f.plane.toNat * 2 ^ 5 + portNum inp * 2 ^ 2 + lost.toNat),
   w64 (f.tid.toNat * 2 ^ 46 + if f.plane = 2 then f.addr.toNat % 2 ^ 24 else f.addr.toNat))

/-- The records a probe's trace holds: 1,024 in the buffer, or the ring's. -/
def traceSize (s : State) (stop : Nat) : Nat :=
  if bit (s.reg .PRB_CTL stop) 2 then 1024 * 2 ^ min 11 (s.regF .PRB_TRACE 11 8 stop) else 1024

/-- A matched packet is traced, unless the trace has stopped full or failed; a record that cannot be stored is dropped (R267,
R270). -/
def traceFlit (stop : Nat) (inp : PortDir) (f : Flit) (s : State) : State :=
  let st := s.reg .PRB_STATUS stop
  let n := fld st 20 0
  let size := traceSize s stop
  if bit st 63 then s
  else if bit st 62 then
    (s.setRegF .PRB_STATUS 61 61 1 stop).modFab fun b =>
      { b with traceLost := if b.traceLost.contains stop then b.traceLost else b.traceLost ++ [stop] }
  else
    let d := s.draw
    let s := d.2
    let w := traceWords d.1.toNat inp f (s.fab.traceLost.contains stop)
    let next := fun (s : State) =>
      let s := s.modFab fun b => { b with traceLost := b.traceLost.filter fun x => x != stop }
      let s := s.setRegF .PRB_STATUS 20 0 (if n + 1 < size then n + 1 else 0) stop
      if n + 1 = size ∧ !bit (s.reg .PRB_CTL stop) 3 then s.setRegF .PRB_STATUS 62 62 1 stop else s
    if bit (s.reg .PRB_CTL stop) 2 then
      let pa := s.regF .PRB_TRACE 51 12 stop * 4096 + 16 * n
      match ownership s stop none pa 12 pa 0 with
      | .ok _ => next (poke pa 0 (leBytes 8 w.1.toNat ++ leBytes 8 w.2.toNat) s)
      | .error _ => s.setRegF .PRB_STATUS 63 63 1 stop
    else next (s.modFab fun b => { b with trace := NMap.set (0, 0) b.trace (stop * 1024 + n) w })

/-- A probe sees a flit at a router input. -/
def probeFlit (stop : Nat) (inp : PortDir) (f : Flit) (s : State) : State :=
  if !probeMatch s stop inp f then s
  else
    let c := s.reg .PRB_CTL stop
    let s := if bit c 0 && !s.frozen.contains stop then
        s.setReg .PRB_CNT (w64 ((s.regF .PRB_CNT 47 0 stop + 1) % 2 ^ 48)) stop
      else s
    if bit c 1 then traceFlit stop inp f s else s

/-- A write of a probe register (R271); a write of PRB_CTL restarts the trace (Table 06-23). -/
def writeProbe (r : Req) (n : RegName) (stop : Nat) (v : W64) (s : State) : State :=
  if !(isHF r || r == .cx 0 || r == .cx 2) then s
  else
    let s := s.writeReg n v stop
    if n = .PRB_CTL then (s.setRegF .PRB_STATUS 62 62 0 stop).setRegF .PRB_STATUS 20 0 0 stop else s

/-- PRB_CTL_WRITE (R271). -/
def execPrbCtlWrite (r : Req) (stop : Nat) (v : W64) (s : State) : Host.Outcome State Fault Refusal :=
  answer s (if (stopKind stop).isSome then writeProbe r .PRB_CTL stop v s else s)

/-! ## Routers (R230, R238, R240) -/

/-- Two flits that keep their order on a link. -/
def flitLane (a b : Flit) : Bool :=
  a.plane == b.plane && a.chan == b.chan && a.vn == b.vn && a.src == b.src && a.dst == b.dst

/-- A flit leaves a router in a direction. -/
def forwardFlit (stop : Nat) (dir : PortDir) (f : Flit) (s : State) : State :=
  match neighbour s stop dir with
  | none => s
  | some n =>
    let k := n * 8 + portNum (farInput dir)
    s.modFab fun b => { b with routers := NMap.set [] b.routers k (NMap.get [] b.routers k ++ [f]) }

/-- FLIT_ARRIVE (R230, R231, R238, R241, R248, R253, R254, R267): a flit at a router input. One that does not match its check is
discarded; the probe sees the others; each goes on to its next router, or to this stop. A flit behind another of its order on the
link waits (R240). -/
def execFlitArrive (stop : Nat) (inp : PortDir) (f : Flit) (s : State) : Host.Outcome State Fault Refusal :=
  let k := stop * 8 + portNum inp
  let q := NMap.get [] s.fab.routers k
  answer s (if (stopKind stop).isNone || bypassed s stop || (q.contains f && (q.takeWhile fun x => x != f).any (flitLane f)) then s
    else
      let s := s.modFab fun b => { b with routers := NMap.set [] b.routers k (q.erase f) }
      if !f.hchkOk || injArmed s (.fabric stop) 0x20 [4] (f.addr.toNat * 64) then niRecord stop .fatal 0x07 0 f.src.toNat s
      else
        let s := probeFlit stop inp f s
        if f.plane = 2 ∧ f.dst = 0xFF then
          deliverFlit stop f ((bcastOuts s stop f.src.toNat inp).foldl (fun s d => forwardFlit stop d f s) s)
        else
          let r := routeFlit stop f
          if r.1 = .own then deliverFlit stop r.2 s else forwardFlit stop r.1 r.2 s)

/-! ## Ports (06.7) -/

/-- R668: an island that counts again takes the chip-wide freeze from ERG_GCTL. -/
def refreshFreeze (stop : Nat) (s : State) : State :=
  let on := bit (s.reg .ERG_GCTL) 62
  let s := { s with frozen := (s.frozen.filter fun x => x != stop) ++ (if on then [stop] else []) }
  match stopKind stop with
  | some (0, t) => takeFreeze (2 * t + 1) (takeFreeze (2 * t) s)
  | _ => s

/-- The flits held at a port cross. -/
def releaseHeld (stop : Nat) (s : State) : State :=
  let q := NMap.get [] s.fab.heldFlits stop
  q.foldl (fun s f => deliverFlit stop f s) (s.modFab fun b => { b with heldFlits := NMap.erase b.heldFlits stop })

/-- ISLAND_READY (R254, R668). -/
def execIslandReady (stop : Nat) (s : State) : Host.Outcome State Fault Refusal :=
  answer s (if (stopKind stop).isSome && s.regF .NI_PORT 2 0 stop == 2 then
      refreshFreeze stop (releaseHeld stop (s.setRegF .NI_PORT 2 0 0 stop))
    else s)

/-- CREDIT_RESYNC (R257, Table 06-14): the island acknowledges; the port returns to RUN and its count clears. -/
def execCreditResync (stop : Nat) (s : State) : Host.Outcome State Fault Refusal :=
  answer s (if (stopKind stop).isSome && s.regF .NI_PORT 2 0 stop == 4 then
      refreshFreeze stop (s.setReg .NI_PORT 0 stop)
    else s)

/-- The flits held at a port that closes: requests are answered, the others discarded and counted (Table 06-12). -/
def dropHeld (stop status : Nat) (s : State) : State :=
  let q := NMap.get [] s.fab.heldFlits stop
  q.foldl (fun s f => match flitOp f with
    | some op => if flitRequest f then niAnswer (flitPacket s f op 0) status s else s.bumpReg .NI_PORT 31 16 stop
    | none => s) (s.modFab fun b => { b with heldFlits := NMap.erase b.heldFlits stop })

/-- The requests a stop's island has taken and not answered: outstanding, with no request or response of theirs on its way. -/
def unanswered (s : State) (stop : Nat) : List Out :=
  s.fab.outs.filter fun o => o.dst == stop && !o.held &&
    !(s.fab.net.any fun p => (p.op == o.op && p.src == o.stop && p.tid == o.tid) || (p.dst == o.stop && p.tid == o.tid &&
      (opClass p.op == 2 || opClass p.op == 3 || opClass p.op == 6)))

/-- R257: an island enters reset and its port goes to RESET. -/
def portReset (stop : Nat) (s : State) : State :=
  let open_ := unanswered s stop
  let s := dropHeld stop 2 (s.setRegF .NI_PORT 2 0 3 stop)
  open_.foldl (fun s o =>
    send (abortReply (mkPacket o.op o.stop o.dst o.tid o.addr o.key o.who .ni) 2) s) s

/-- The island's reset is released: it asks for resynchronisation (Table 06-14, steps 1 and 2). -/
def portRelease (stop : Nat) (s : State) : State :=
  if s.regF .NI_PORT 2 0 stop = 3 then s.setRegF .NI_PORT 2 0 4 stop else s

/-! ## Watchdogs and fences (06.8) -/

/-- A requester receives an abort for one of its requests. -/
def abortOut (o : Out) (status : Nat) (s : State) : State :=
  match o.who with
  | .core n =>
    if asksLine o.op then fillAborted n o.addr o.key status s
    else (match o.op with
      | .WrPtl | .WrLine | .RegWr =>
        storeAbort n status (requestPa o.op (match stopKind o.dst with | some (2, i) => .io i | _ => .ni) o.addr) s
      | .RegRd =>
        (match (s.core n).wait with
         | some ⟨⟨.rand ra rb, _, _, _, _, _⟩, _, _, _⟩ =>
           (match (s.core n).wait with
            | some w => finishMem n w (fun c => (c.setG ra 0).setG rb 0) s
            | none => s)
         | _ => deviceArrives n status 0 false o.addr 0 s)
      | _ => deviceArrives n status 0 false o.pa o.key s)
  | .pairCache k icache =>
    record (.sv k) { mkRec .deferred (svStop k) 0x50 0x05 status with addr := some (errAddr 0 (o.addr * 64)) }
      (s.modPair k fun q => { q with fills := q.fills ++ [⟨icache, o.addr, 0, true, true⟩] })
  | .pair k =>
    if o.op ≠ .RdOnce then s
    else
      let s := record (.sv k) { mkRec .deferred (svStop k) 0x50 0x05 status with addr := some (errAddr 0 (o.addr * 64)) } s
      (match (s.pair k).wait with
       | some w => cxLoad k w.rd w.addr w.size w.sext (w.got ++ [(o.addr, 0, true)]) s
       | none => s)
  | .slot k i => reachEnd k i status none s
  | .home t =>
    (match s.homes.txns.find? (fun x => x.slice == t && x.mem && x.req.addr == o.addr) with
     | none => s
     | some x =>
       let y := { x with mem := false, dat := some 0, poison := true }
       runSlice t (tryFinish y (setTxn x y s)))
  | _ => s

/-- WATCHDOG_FIRE (R259, R260): the requester receives an abort with status 6, the event is logged, the destination is sent a Fence,
and the transaction number is held until every mark has come. -/
def execWatchdogFire (stop tid : Nat) (s : State) : Host.Outcome State Fault Refusal :=
  answer s (match findOut s stop tid with
    | none => s
    | some o =>
      let blocked : Bool := match o.who with
        | .core n => syncBlocked s n
        | .pair k => !pairAlive s k
        | _ => false
      if o.held || blocked then s
      else
        let hold := fun (x : Out) => if x.stop = stop ∧ x.tid = tid then { x with held := true, marks := 9 } else x
        let s := s.modFab fun b => { b with outs := b.outs.map hold }
        let s := niRecord stop .uncorrected 0x06 0 o.dst (wdLog stop 0 tid o.dst s)
        abortOut o 6 (send (mkPacket .Fence stop o.dst tid 0 0 .ni .ni) s))

/-- The nine marks of a fence to the stop that asked for it (R262). -/
def sendMarks (stop src tid : Nat) (s : State) : State :=
  (List.range 9).foldl (fun s k => send { mkPacket .FenceMark stop src tid 0 0 .ni .ni with arg := k } s) s

/-- A port is fenced (R260, R261). -/
def fencePort (stop : Nat) (s : State) : State :=
  match s.regF .NI_PORT 2 0 stop with
  | 3 | 4 => s
  | _ => dropHeld stop 3 (s.setRegF .NI_PORT 2 0 5 stop)

/-- FENCE_REQUEST (R260, R262). Requests that came before it and wait to cross into the island do not hold it up. -/
def execFenceRequest (stop src : Nat) (s : State) : Host.Outcome State Fault Refusal :=
  answer s (if (stopKind stop).isNone || (stopKind src).isNone then s
    else match takePacket (fun p => p.op == .Fence && p.dst == stop && p.src == src) s with
      | some (p, s) => sendMarks stop src p.tid (fencePort stop s)
      | none => sendMarks stop src 0 (fencePort stop s))

/-- Whether a packet is a mark of a fence on one channel. -/
def isMark (stop src ch : Nat) (p : Packet) : Bool := p.op == .FenceMark && p.dst == stop && p.src == src && p.arg == ch

/-- Whether a response of the fenced stop stands before the mark: it arrives first (R240, R262). -/
def markWaits (stop src ch : Nat) (s : State) : Bool :=
  (s.fab.net.takeWhile fun x => !isMark stop src ch x).any fun x =>
    x.src == src && x.dst == stop && x.op != .FenceMark && (opClass x.op == 2 || opClass x.op == 3 || opClass x.op == 6)

/-- FENCEMARK (R262): one mark comes; with the last the transaction number is free again. -/
def execFencemark (stop src ch : Nat) (s : State) : Host.Outcome State Fault Refusal :=
  answer s (match takePacket (isMark stop src ch) s with
    | none => s
    | some (p, s') =>
      if markWaits stop src ch s then s else
      let s := s'
      let mark := fun (o : Out) => if o.stop = stop ∧ o.dst = src ∧ o.tid = p.tid ∧ o.held then
          (if o.marks ≤ 1 then none else some { o with marks := o.marks - 1 })
        else some o
      s.modFab fun b => { b with outs := b.outs.filterMap mark })

/-- Whether something waits to cross into a stop's island. -/
def waitsAtPort (s : State) (stop : Nat) : Option Nat :=
  match NMap.get [] s.fab.heldFlits stop with
  | f :: _ => some f.src.toNat
  | [] => (s.fab.net.find? fun p => p.dst == stop).map Packet.src

/-- OWN_PORT_STALL (R261): a flit has waited for the port too long; the port is fenced and the event logged. -/
def execOwnPortStall (stop : Nat) (s : State) : Host.Outcome State Fault Refusal :=
  answer s (match waitsAtPort s stop with
    | none => s
    | some peer =>
      if (stopKind stop).isNone || decide (3 ≤ s.regF .NI_PORT 2 0 stop) then s
      else niRecord stop .uncorrected 0x06 2 peer (wdLog stop 2 0 peer (fencePort stop s)))

/-! ## Acknowledged broadcasts (R252) -/

/-- A broadcast is over at its source. -/
def endBcast (b : Bcast) (s : State) : State :=
  let s := s.modFab fun f => { f with bcasts := f.bcasts.erase b }
  match b.kind, b.who with
  | .tagRecov, .core n => rebuildSet n b.arg s
  | _, _ => s

/-- BCACK (R252): an acknowledgement comes; with the last the broadcast completes. -/
def execBcack (stop src : Nat) (b : BcastKind) (s : State) : Host.Outcome State Fault Refusal :=
  let mine := fun (p : Packet) => p.op == .BcAck && p.dst == stop && p.src == src && p.arg == bcastCode b
  answer s (match ordered mine s with
    | none => s
    | some (p, s) =>
      match s.fab.bcasts.find? fun x => decide (x.kind = b) && x.src == stop && x.who == p.to_ && x.arg == p.addr &&
        x.missing.contains src with
      | none => unexpected stop 0 src s
      | some x =>
        let y := { x with missing := x.missing.filter fun m => m != src }
        let s := s.modFab fun f => { f with bcasts := f.bcasts.map fun z => if z = x then y else z }
        if y.missing = [] then endBcast y s else s)

/-- BROADCAST_TIMEOUT (R252, Table 06-16): the broadcast completes; each missing stop is logged and fenced. -/
def execBroadcastTimeout (stop : Nat) (b : BcastKind) (s : State) : Host.Outcome State Fault Refusal :=
  answer s (if b = .samUpd then s
    else match s.fab.bcasts.find? fun x => decide (x.kind = b) && x.src == stop with
      | none => s
      | some x =>
        endBcast x (x.missing.foldl (fun s m =>
          send (mkPacket .Fence stop m 0 0 0 .ni .ni) (niRecord stop .uncorrected 0x06 1 m (wdLog stop 1 0 m s))) s))

end Sys2Proof.Machine
end

