-- ==== Sys2Proof/Machine/SweepBlk.lean ====
section
/-! DEFINITION. Sweep descriptors, column blocks, predicates and output data, as bytes (08.3 to 08.5, 08.7, 08.9). -/

namespace Sys2Proof.Machine

/-! ## Descriptors (Table 08-15) -/

/-- Doubleword `k` of a job's descriptor. -/
def SwJob.dw (j : SwJob) (k : Nat) : W64 := j.words.getD k 0

def SwJob.seq (j : SwJob) : Nat := fld (j.dw 0) 63 48
def SwJob.ncols (j : SwJob) : Nat := fld (j.dw 0) 39 36
def SwJob.signed (j : SwJob) : Bool := bit (j.dw 0) 35
def SwJob.negate (j : SwJob) : Bool := bit (j.dw 0) 34
def SwJob.crcFlag (j : SwJob) : Bool := bit (j.dw 0) 33
def SwJob.irq (j : SwJob) : Bool := bit (j.dw 0) 32
def SwJob.bshift (j : SwJob) : Nat := fld (j.dw 0) 31 28
def SwJob.outForm (j : SwJob) : Nat := fld (j.dw 0) 27 24
def SwJob.pkind (j : SwJob) : Nat := fld (j.dw 0) 23 20
def SwJob.pcond (j : SwJob) : BitVec 3 := BitVec.ofNat 3 (fld (j.dw 0) 18 16)
def SwJob.ordered (j : SwJob) : Bool := bit (j.dw 0) 15
def SwJob.op (j : SwJob) : Nat := fld (j.dw 0) 7 0
def SwJob.recAddr (j : SwJob) : Nat := (j.dw 1).toNat
def SwJob.col (j : SwJob) (c : Nat) : Nat := (j.dw (if c = 0 then 2 else 3 + c)).toNat
def SwJob.src (j : SwJob) : Nat := (j.dw 2).toNat
def SwJob.dst (j : SwJob) : Nat := (j.dw 4).toNat
def SwJob.count (j : SwJob) : Nat := fld (j.dw 3) 47 0
def SwJob.pwBytes (j : SwJob) (c : Nat) : Nat := 2 ^ fld (j.dw 7) (2 * c + 1) (2 * c)
def SwJob.n (j : SwJob) : Nat := fld (j.dw 7) 31 16 + 1
def SwJob.aggs (j : SwJob) : Nat := fld (j.dw 7) 35 32
def SwJob.a (j : SwJob) : W64 := j.dw 8
def SwJob.b (j : SwJob) : W64 := j.dw 9

/-- A customer opcode (R333). -/
def SwJob.customer (j : SwJob) : Bool := decide (0x80 ≤ j.op)

/-- Operations whose units are blocks of column 0, the customer's among them (R320, R402, R403). -/
def SwJob.blocks (j : SwJob) : Bool := (decide (1 ≤ j.op) && decide (j.op ≤ 3)) || j.customer

/-- The first address of the range that units divide: column 0, the source, or for FILL the destination (R320). -/
def SwJob.unitBase (j : SwJob) : Nat := if j.op = 5 then j.dst else j.src

/-- Block or chunk size S = G >> bshift (R324, R325). -/
def SwJob.size (G : Nat) (j : SwJob) : Nat := G >>> j.bshift

/-- How many units a job has (R320). -/
def SwJob.units (G : Nat) (j : SwJob) : Nat :=
  if j.blocks then j.count else (j.count + j.size G - 1) / max (j.size G) 1

/-- The must-be-zero fields of a descriptor. -/
def SwJob.zeroOk (j : SwJob) : Bool :=
  fld (j.dw 0) 47 40 == 0 && fld (j.dw 0) 19 19 == 0 && fld (j.dw 0) 14 8 == 0 && fld (j.dw 3) 63 48 == 0 &&
    fld (j.dw 7) 63 36 == 0 && fld (j.dw 7) 15 8 == 0 && (j.words.drop 10).all (· == 0)

/-- R351 for what every operation shares: zero fields, S, the record address, the predicate and its operand. -/
def SwJob.commonOk (G : Nat) (j : SwJob) : Bool :=
  j.zeroOk && decide (256 ≤ j.size G) && j.recAddr % 64 == 0 &&
    (match j.pkind with
     | 0 | 1 | 2 => true
     | 3 => decide (1 ≤ j.b.toNat) && decide (j.b.toNat ≤ 64)
     | 4 => decide (13 ≤ fld j.b 4 0) && decide (fld j.b 4 0 ≤ 23)
     | _ => false)

/-- The columns are aligned to S (R325). -/
def SwJob.colsOk (G : Nat) (j : SwJob) : Bool := (List.range j.ncols).all fun c => j.col c % j.size G == 0

/-- R351: whether the descriptor of a built-in operation keeps Table 08-15. Only SCAN has a choice of output form (log entry 17). -/
def SwJob.ok (G : Nat) (j : SwJob) : Bool :=
  j.commonOk G &&
    (match j.op with
     | 1 => decide (1 ≤ j.ncols) && decide (j.ncols ≤ 4) && decide (j.outForm ≤ 3) && j.colsOk G
     | 2 => j.ncols == 2 && j.outForm == 0 && decide (j.aggs ≠ 0) && j.colsOk G
     | 3 => decide (1 ≤ j.ncols) && decide (j.ncols ≤ 4) && j.outForm == 0 && decide (j.n ≤ 1024) && j.colsOk G
     | 4 => j.ncols == 0 && j.outForm == 0 && j.src % j.size G == 0 && j.dst % j.size G == 0
     | 5 => j.ncols == 0 && j.outForm == 0 && j.dst % j.size G == 0
     | 6 => j.ncols == 0 && j.outForm == 0 && j.src % j.size G == 0
     | _ => false)

/-- Bytes of the operator area that a built-in job needs (R336). -/
def SwJob.areaBytes (j : SwJob) : Nat :=
  (match j.pkind with | 3 => 512 | 4 => 2 ^ fld j.b 4 0 / 8 | _ => 0) +
    (match j.op with
     | 2 => j.n * 8 * countOnes (BitVec.ofNat 4 j.aggs)
     | 3 => j.n * 1024
     | _ => 0)

/-- The form a buffer header carries (R363). -/
def SwJob.bufForm (j : SwJob) : Nat :=
  match j.op with
  | 2 => 4
  | 3 => 5
  | _ => if j.outForm = 4 then 6 else j.outForm

/-! ## Column blocks (08.3, 08.4) -/

/-- Bytes `off` to `off + n - 1` as a number. -/
def bytesNat (bs : List Byte) (off n : Nat) : Nat := leNat ((bs.drop off).take n)

/-- Bits [off + n - 1 : off] of a bit string. -/
def bitsAt (v off n : Nat) : Nat := (v >>> off) % 2 ^ n

/-- Word `k` of a block header (Table 08-1). -/
def hdrWord (h : List Byte) (k : Nat) : W64 := w64 (bytesNat h (8 * k) 8)

def hdrFirstRow (h : List Byte) : Nat := fld (hdrWord h 0) 47 0
def hdrRows (h : List Byte) : Nat := fld (hdrWord h 1) 63 32
def hdrDepth (h : List Byte) : Nat := fld (hdrWord h 1) 27 24
def hdrTotal (h : List Byte) : Nat := fld (hdrWord h 1) 23 0
def hdrStage (h : List Byte) (k : Nat) : Nat := fld (hdrWord h 2) (16 * k + 15) (16 * k)
def hdrLen (h : List Byte) (k : Nat) : Nat := fld (hdrWord h (3 + k / 2)) (32 * (k % 2) + 31) (32 * (k % 2))

/-- Table 08-4, orders 2 to 4: what is checked before any read past the header. -/
def headerFault (S : Nat) (h : List Byte) : Option Nat :=
  let d := hdrDepth h
  if fld (hdrWord h 0) 63 48 ≠ 0xC01B then some 3
  else if d = 0 ∨ 4 < d then some 1
  else if S < hdrTotal h ∨ ((List.range d).foldl (fun a k => a + hdrLen h k) 48 ≠ hdrTotal h)
      ∨ ((List.range 4).any fun k => decide (d ≤ k) && decide (hdrLen h k ≠ 0)) then some 2
  else none

/-- A stage: kind, the w field, the values it produces and its section (Tables 08-2, 08-3). -/
structure Stage where
  kind : Nat
  w : Nat
  n : Nat
  sec : List Byte
  deriving DecidableEq, Repr

/-- The bytes that `n` values of `w` bits take, padded to doublewords. -/
def packedLen (n w : Nat) : Nat := (n * w + 63) / 64 * 8

/-- The entry width of a dictionary. -/
def dictWidth (w : Nat) : Nat := 2 ^ (w % 4)

/-- Where section `k` begins. -/
def secStart (h : List Byte) (k : Nat) : Nat := (List.range k).foldl (fun a i => a + hdrLen h i) 48

/-- Table 08-4, order 5: the stage words and must-be-zero fields. Bytes [7:4] of a run-length section are one of them. -/
def encodingFault (h body : List Byte) : Bool :=
  let d := hdrDepth h
  decide (fld (hdrWord h 1) 31 28 ≠ 0) || decide (fld (hdrWord h 5) 63 32 ≠ 0) ||
    (List.range 4).any fun k =>
      let st := hdrStage h k
      let kind := st / 2 ^ 13
      let w := st / 2 ^ 7 % 64
      if d ≤ k then decide (st ≠ 0)
      else kind == 0 || kind == 6 || kind == 7 || (kind == 1) != (k + 1 == d) || decide (st % 128 ≠ 0) ||
        (kind == 2 && decide (4 ≤ w)) || ((kind == 4 || kind == 5) && decide (w ≠ 0)) ||
        (kind == 3 && decide (8 ≤ hdrLen h k) && decide (bytesNat body (secStart h k + 4) 4 ≠ 0))

/-- Table 08-4, order 6, from stage `k` inward: each section against Table 08-3 for the count it must hold. -/
def stagesFrom (h body : List Byte) (k n : Nat) : Nat → Option (List Stage)
  | 0 => some []
  | left + 1 =>
    let st := hdrStage h k
    let kind := st / 2 ^ 13
    let w := st / 2 ^ 7 % 64
    let len := hdrLen h k
    let sec := (body.drop (secStart h k)).take len
    let runs := bytesNat sec 0 4
    let fits : Bool := match kind with
      | 1 => len == packedLen n (w + 1)
      | 2 => len % dictWidth w == 0 && decide (1 ≤ len / dictWidth w) && decide (len / dictWidth w ≤ 65536)
      | 3 => decide (8 ≤ len) && len == 8 + packedLen runs (w + 1)
      | _ => len == 8
    if fits then (stagesFrom h body (k + 1) (if kind = 3 then runs else n) left).map (⟨kind, w, n, sec⟩ :: ·)
    else none

/-- The values of `n` fields of `w` bits. -/
def unpack (sec : List Byte) (n w : Nat) : List W64 :=
  let v := leNat sec
  (List.range n).map fun i => w64 (bitsAt v (w * i) w)

/-- The outputs of one stage from its inner values (Table 08-3); none for the faults of order 8. -/
def stageOut (st : Stage) (inner : List W64) : Option (List W64) :=
  match st.kind with
  | 1 => some (unpack st.sec st.n (st.w + 1))
  | 2 =>
    let eb := dictWidth st.w
    let count := st.sec.length / eb
    if inner.any fun c => decide (count ≤ c.toNat) then none
    else some (inner.map fun c => w64 (bytesNat st.sec (eb * c.toNat) eb))
  | 3 =>
    let runs := unpack (st.sec.drop 8) inner.length (st.w + 1)
    if runs.foldl (fun a r => a + r.toNat + 1) 0 ≠ st.n then none
    else some ((inner.zip runs).flatMap fun e => List.replicate (e.2.toNat + 1) e.1)
  | 4 =>
    let r := inner.foldl (fun (acc : W64 × List W64) (u : W64) =>
      let v : W64 := acc.1 + ((u >>> 1) ^^^ (0#64 - (u &&& 1#64)))
      (v, v :: acc.2)) (w64 (bytesNat st.sec 0 8), [])
    some r.2.reverse
  | _ => some (inner.map fun u => w64 (bytesNat st.sec 0 8) + u)

/-- The values of a chain of stages, outermost first (R328). -/
def decodeStages : List Stage → Option (List W64)
  | [] => some []
  | st :: rest =>
    match decodeStages rest with
    | none => none
    | some inner => stageOut st inner

/-- Table 08-4, orders 5 to 8, of a block whose header has passed: the column, or the error code. A block of no rows has no check of
its own and fails as BLOCK_DATA (log entry 17). -/
def decodeBlock (crcFlag : Bool) (body : List Byte) : Except Nat Column :=
  if encodingFault body body then .error 3
  else match stagesFrom body body 0 (hdrRows body) (hdrDepth body) with
    | none => .error 2
    | some sts =>
      if crcFlag && crc32c ((body.drop 48).take (hdrTotal body - 48)) != fld (hdrWord body 5) 31 0 then .error 5
      else if hdrRows body = 0 then .error 4
      else match decodeStages sts with
        | none => .error 4
        | some vals => .ok ⟨hdrFirstRow body, hdrRows body, vals⟩

/-! ## Predicates (R334, R335) -/

/-- CRC-32C of the 8 bytes of a value. -/
def crcValue (v : W64) : Nat := crc32c (leBytes 8 v.toNat)

/-- R335: the Bloom test of a value against the filter's bytes. -/
def bloom (m k : Nat) (filter : List Byte) (v : W64) : Bool :=
  let h1 := crcValue v
  let h2 := (h1 / 2 ^ 17 + h1 * 2 ^ 15 % 2 ^ 32) ||| 1
  (List.range k).all fun j =>
    let x := (h1 + j * h2) % m
    (filter.getD (x / 8) 0).getLsbD (x % 8)

/-- The test of Table 08-6 with the negate flag; `operand` holds the list or filter. -/
def SwJob.selects (j : SwJob) (operand : List Byte) (v : W64) : Bool :=
  let t := match j.pkind with
    | 0 => true
    | 1 => condHolds j.pcond v j.a
    | 2 => if j.signed then j.a.sle v && v.sle j.b else j.a.ule v && v.ule j.b
    | 3 => (List.range j.b.toNat).any fun i => bytesNat operand (8 * i) 8 == v.toNat
    | _ => bloom (2 ^ fld j.b 4 0) (fld j.b 10 8 + 1) operand v
  t != j.negate

/-! ## Output data (Table 08-18) -/

/-- An entry of an output buffer: partition, first group, bytes, and how many entries it counts as. -/
structure OutEnt where
  part : Nat
  first : Nat
  bytes : List Byte
  entries : Nat
  deriving DecidableEq, Repr

/-- What a unit puts out, in order: data, or the flush of FLUSH. -/
inductive OutStep where
  | ent (e : OutEnt)
  | bits (firstRow : Nat) (flags : List Bool)
  | flush
  deriving DecidableEq, Repr

/-- A row of form 3 or of PART, padded to 8 bytes. -/
def SwJob.rowBytes (j : SwJob) (cols : List Column) (r : Nat) : List Byte :=
  let id := (cols.map Column.firstRow).headD 0 + r
  let b := (if j.ordered then leBytes 8 (id % 2 ^ 48) else []) ++
    (cols.zipIdx.flatMap fun e => leBytes (j.pwBytes e.2) (e.1.vals.getD r 0).toNat)
  b ++ List.replicate ((8 - b.length % 8) % 8) 0

/-- The output of selected rows in a form of Table 08-18 other than the bitmap. -/
def SwJob.rowOut (j : SwJob) (cols : List Column) (r : Nat) : List OutStep :=
  match j.outForm with
  | 2 => [.ent ⟨0, 0, leBytes 8 (((cols.map Column.firstRow).headD 0 + r) % 2 ^ 48), 1⟩]
  | 3 => [.ent ⟨0, 0, j.rowBytes cols r, 1⟩]
  | _ => []

/-- The output of a SCAN unit. -/
def SwJob.scanOut (j : SwJob) (cols : List Column) (sel : List Nat) : List OutStep :=
  match j.outForm with
  | 1 =>
    let rows := (cols.map Column.rows).headD 0
    [.bits ((cols.map Column.firstRow).headD 0) ((List.range rows).map fun r => sel.contains r)]
  | _ => sel.flatMap fun r => j.rowOut cols r

/-- The output of a PART unit: partition p = CRC-32C(key, initial value b[31:0]) mod npart. -/
def SwJob.partOut (j : SwJob) (cols : List Column) (sel : List Nat) : List OutStep :=
  sel.map fun r =>
    let key := ((cols.headD ⟨0, 0, []⟩).vals.getD r 0).toNat
    let p := (crcRun (fld j.b 31 0) (leBytes 8 key) ^^^ 0xFFFFFFFF) % j.n
    .ent ⟨p, p, j.rowBytes cols r, 1⟩

/-- The aggregates of an empty group. -/
def SwJob.emptyAgg (j : SwJob) : AggRow :=
  if j.signed then ⟨0, 0, w64 (2 ^ 63 - 1), w64 (2 ^ 63)⟩ else ⟨0, 0, w64 (2 ^ 64 - 1), 0⟩

/-- A value joins a group. -/
def SwJob.addAgg (j : SwJob) (r : AggRow) (v : W64) : AggRow :=
  let less := fun (a b : W64) => if j.signed then a.slt b else a.ult b
  ⟨r.count + 1, r.sum + v, if less v r.min then v else r.min, if less r.max v then v else r.max⟩

/-- The aggregates of a unit's selected rows joined to a table. -/
def SwJob.aggUnit (j : SwJob) (cols : List Column) (sel : List Nat) (t : NMap AggRow) : NMap AggRow :=
  sel.foldl (fun t r =>
    let g := ((cols.getD 1 ⟨0, 0, []⟩).vals.getD r 0).toNat
    NMap.put t g (j.addAgg (NMap.get j.emptyAgg t g) ((cols.headD ⟨0, 0, []⟩).vals.getD r 0))) t

/-- The table of an engine: from group 0 upward, the selected aggregates. -/
def SwJob.aggOut (j : SwJob) (t : NMap AggRow) : List OutStep :=
  (List.range j.n).map fun g =>
    let r := NMap.get j.emptyAgg t g
    let part := fun (i : Nat) (v : W64) => if j.aggs.testBit i then leBytes 8 v.toNat else []
    .ent ⟨0, g, part 0 r.count ++ part 1 r.sum ++ part 2 r.min ++ part 3 r.max, 1⟩

/-- The image of a buffer: its header (R363) and data. -/
def SwJob.image (j : SwJob) (e : Nat) (b : OpenBuf) : List Byte :=
  leBytes 8 (j.seq * 2 ^ 48 + e % 16 * 2 ^ 44 + j.bufForm * 2 ^ 40 + b.data.length) ++ leBytes 8 (b.first % 2 ^ 48) ++
    leBytes 8 (b.entries % 2 ^ 48) ++ List.replicate 40 0 ++ b.data

end Sys2Proof.Machine
end

