-- ==== Sys2Proof/Machine/Sweep.lean ====
section
/-! DEFINITION. What queues and engines of the Sweep share: job accesses, pool and result ring, completion records, publication, and
the end of an engine's share (08.1, 08.6 to 08.10). -/

namespace Sys2Proof.Machine

/-! ## Registers of a queue -/

/-- A register of queue `q`, and its bits (R337). -/
def qreg (s : State) (r : RegName) (q : Nat) : W64 := s.reg r (q / 64) (q % 64)
def qF (s : State) (r : RegName) (hi lo q : Nat) : Nat := fld (qreg s r q) hi lo
def setQF (r : RegName) (hi lo q x : Nat) (s : State) : State := s.setRegF r hi lo x (q / 64) (q % 64)

/-- A virtual address held in bits [56:lo] of a register, sign-extended from bit 56. -/
def qVa (v : W64) : Nat := ((v.setWidth 57).signExtend 64).toNat

/-- The region a queue is bound to, its granule and its group (R319). -/
def qRegion (s : State) (q : Nat) : Nat := qF s .SWQ_CTX 62 60 q
def qGranule (s : State) (q : Nat) : Nat := granule (s.reg .SAM_RCFG 0 (qRegion s q))
def qGroup (s : State) (q : Nat) : BitVec 16 := (s.reg .SAM_RCFG 0 (qRegion s q)).setWidth 16

/-- An engine is in service (AVAIL_MEM.sweep). -/
def swInService (s : State) (e : Nat) : Bool := decide (e < 16) && bit (s.reg .AVAIL_MEM) (16 + e)

/-- Finish has begun: no engine writes a record, buffer or result entry (R373). -/
def swHalted (s : State) : Bool := s.fab.finishLevel

/-! ## Job accesses (R322, R341, R342) -/

/-- Why a step of a job does not go on: no buffer or result entry is free (R356), or an access fails with a code of Table 08-19. -/
inductive SwFail where
  | full
  | err (code pa key : Nat) (read : Bool)
  deriving DecidableEq, Repr

/-- The context of a queue's job accesses (R341): level U, the queue's roots, stages, ctx and asid. -/
def swCtx (s : State) (q e : Nat) : XCtx :=
  let x := qreg s .SWQ_CTX q
  let ctx := fld x 31 16
  { regime := if bit x 63 then .part ctx else .guest ctx, asid := fld x 15 0, part := if bit x 63 then some ctx else none,
    own := false, guestOn := bit x 57, guestLvl5 := bit x 56, guestRoot := qF s .SWQ_GROOT 51 12 q * 4096,
    hostOn := bit x 59, hostLvl5 := bit x 58, hostRoot := qF s .SWQ_HROOT 51 12 q * 4096, key := fld x 51 40, user := true,
    devSpace := false, stop := mcStop e }

/-- The code of Table 08-19 for a fault of Table 03-2. -/
def swFaultCode : Nat → Nat
  | 0x10 | 0x12 | 0x14 => 0x09
  | 0x16 => 0x0D
  | _ => 0x0A

/-- The translation of one address by engine `e` in a queue's context, with the key rule of R342. -/
def swXlate (s : State) (q e va : Nat) (kind : Access) : Except SwFail TlbEnt :=
  let c := swCtx s q e
  let r : Except XFault TlbEnt := match (s.engine e).tlb.find? (fun t => t.covers c va) with
    | some t => (match tlbFault t c va kind with | some f => .error f | none => .ok t)
    | none => translate s c va kind
  match r with
  | .error f => .error (.err (swFaultCode f.code) 0 0 true)
  | .ok t => if t.key ≠ 0 ∧ t.key ≠ c.key then .error (.err 0x0B 0 0 true) else .ok t

/-- The engine keeps a translation until an invalidation reaches it (R341, R546; log entry 18). -/
def swKeep (q e : Nat) (t : TlbEnt) (s : State) : State :=
  let c := swCtx s q e
  if (c.guestOn || c.hostOn) && !(s.engine e).tlb.contains t then s.modEngine e fun n => { n with tlb := n.tlb ++ [t] } else s

/-- The size of the page of a job's translation an address lies in, as a log (R324, R326). -/
def swPageLog (c : XCtx) (t : TlbEnt) : Nat :=
  min (if c.guestOn then t.gsize else 52) (if c.hostOn then t.hsize else 52)

/-- Where a job access goes: DRAM of an interleave region, else a code. Apertures give REGION (R540); what decodes nowhere or to the
register space is answered with a non-zero status. `region` is the region a column, source or FILL destination must lie in. -/
def swTarget (s : State) (e pa key : Nat) (region : Option Nat) (read : Bool) : Except SwFail Nat :=
  match decodeAddr s (mcStop e) pa with
  | .aperture _ => .error (.err 0x0C pa key read)
  | .mem r ch _ =>
    if region.any fun x => x != r then .error (.err 0x0C pa key read)
    else if (s.mc ch).dead then .error (.err 0x11 pa key read)
    else .ok ch
  | _ => .error (.err (if region.isSome then 0x0C else 0x11) pa key read)

/-- The pieces of a byte range, one for each 4 KiB page: physical address, length, key ID and channel. -/
def swPieces (q e : Nat) (kind : Access) (region : Option Nat) :
    Nat → Nat → Nat → State → Except SwFail (List (Nat × Nat × Nat × Nat) × State)
  | 0, _, _, s => .ok ([], s)
  | fuel + 1, va, len, s =>
    if len = 0 then .ok ([], s)
    else
      match swXlate s q e (va % 2 ^ 64) kind with
      | .error f => .error f
      | .ok t =>
        let va := va % 2 ^ 64
        let pa := t.pa + va % 2 ^ t.size
        let n := min len (4096 - va % 4096)
        match swTarget s e pa t.key region (kind == .read) with
        | .error f => .error f
        | .ok ch =>
          match swPieces q e kind region fuel (va + n) (len - n) (swKeep q e t s) with
          | .error f => .error f
          | .ok (ps, s) => .ok ((pa, n, t.key, ch) :: ps, s)

/-- The Erg events of an engine's read of the lines of a piece: lines read, and the path the shadow gives each line of its own
channel (R222; a line held by the other socket, or any line in broadcast mode, goes to its home). -/
def swCount (e pa n key ch : Nat) (s : State) : State :=
  let first := pa / 64
  let count := (pa + n + 63) / 64 - first
  let remote := fun (line : Nat) => decide ((s.mc ch).untracked ≠ 0) || (NMap.find? (s.mc ch).tracker line).isSome
  let direct := if ch = e then ((List.range count).filter fun i => shadowAt s ch (first + i) == 0 && !remote (first + i)).length else 0
  uncEvent (.mc e) 0x206 [] count key (uncEvent (.mc e) 0x200 [2] direct key (uncEvent (.mc e) 0x205 [0] direct key
    (uncEvent (.mc e) 0x205 [1] (count - direct) key s)))

/-- A job read of engine `e`: the latest value of every line (R223), or a code. -/
def swRead (q e va len : Nat) (region : Option Nat) (s : State) : Except SwFail (List Byte × State) :=
  match swPieces q e .read region (len / 4096 + 2) va len s with
  | .error f => .error f
  | .ok (ps, s) =>
    match ps.find? fun p => (peekBytes s p.1 p.2.1 p.2.2.1).2 with
    | some p => .error (.err 0x0D p.1 p.2.2.1 true)
    | none => .ok (ps.flatMap fun p => (peekBytes s p.1 p.2.1 p.2.2.1).1,
        ps.foldl (fun s p => swCount e p.1 p.2.1 p.2.2.1 p.2.2.2 s) s)

/-- A job write of engine `e`, without L3 allocation (R322). -/
def swWrite (q e va : Nat) (bytes : List Byte) (region : Option Nat) (s : State) : Except SwFail State :=
  match swPieces q e .write region (bytes.length / 4096 + 2) va bytes.length s with
  | .error f => .error f
  | .ok (ps, s) =>
    .ok (ps.foldl (fun (acc : List Byte × State) p => (acc.1.drop p.2.1, poke p.1 p.2.2.1 (acc.1.take p.2.1) acc.2)) (bytes, s)).2

/-- What a failed access leaves in the error banks: the consumption of poison (Table 14-5), an abort by the network interface (R37),
and the deferred record of a read that received a non-zero status (R589). -/
def swLog (e : Nat) (f : SwFail) (s : State) : State :=
  match f with
  | .err 0x0D pa key _ =>
    record (.mc e) { mkRec .uncorrected (mcStop e) 0x33 0x04 0x0D with addr := some (errAddr key pa) } s
  | .err 0x11 pa key read =>
    let s := match decodeAddr s (mcStop e) pa with
      | .mem _ _ _ => s
      | _ => logAbort (mcStop e) pa s
    if read then record (.mc e) { mkRec .deferred (mcStop e) 0x33 0x05 0x11 with addr := some (errAddr key pa) } s else s
  | _ => s

/-- The code of a failure. -/
def SwFail.code : SwFail → Nat
  | .full => 0
  | .err c _ _ _ => c

/-! ## Jobs and shares -/

/-- The job of a queue with a number. -/
def jobOf (s : State) (q id : Nat) : Option SwJob := (s.queue q).jobs.find? fun j => j.id == id
def modJob (q id : Nat) (f : SwJob → SwJob) (s : State) : State :=
  s.modQueue q fun x => { x with jobs := x.jobs.map fun j => if j.id = id then f j else j }

/-- The share of a job that an engine holds. -/
def shareOf (s : State) (e id : Nat) : Option SwShare := (s.engine e).shares.find? fun h => h.job == id

/-- SW_STATUS.inbox follows the jobs that wait to start (log entry 17). -/
def syncInbox (e : Nat) (s : State) : State :=
  s.setRegF .SW_STATUS 23 16 ((s.engine e).shares.filter fun h => !h.started).length e

/-- An engine with a share rewritten, or removed. -/
def putShare (e : Nat) (h : SwShare) (s : State) : State :=
  syncInbox e (s.modEngine e fun n => { n with shares := n.shares.map fun x => if x.job = h.job then h else x })
def dropShare (e id : Nat) (s : State) : State :=
  syncInbox e (s.modEngine e fun n => { n with shares := n.shares.filter fun x => x.job != id })

/-- Words 0 and 1 of a completion record (Table 08-16), each one 8-byte write by the home engine; a write that faults once the
job has begun is dropped. -/
def writeRec (q id : Nat) (s : State) : State :=
  match jobOf s q id with
  | none => s
  | some j =>
    if swHalted s then s
    else
      let w0 := j.seq * 2 ^ 48 + j.done.toNat * 2 ^ 32 + j.err % 2 ^ 16 * 2 ^ 16 + j.errEng % 16 * 2 ^ 8 + j.state
      let w1 := j.group.toNat * 2 ^ 48 + j.errRow % 2 ^ 48
      [(0, w0), (8, w1)].foldl (fun s w => match swWrite q (q / 64) (j.recAddr + w.1) (leBytes 8 w.2) none s with
        | .ok t => t
        | .error f => swLog (q / 64) f s) s

/-- The count words of engine `e` (R359). -/
def writeCounts (q e : Nat) (j : SwJob) (h : SwShare) (s : State) : Except SwFail State :=
  swWrite q e (j.recAddr + 16 + 16 * e) (leBytes 8 (h.consumed % 2 ^ 48) ++ leBytes 8 (h.emitted % 2 ^ 48)) none s

/-- SWQ_CTL.busy follows the jobs in progress and a reset (Table 08-11). -/
def syncBusy (q : Nat) (s : State) : State :=
  setQF .SWQ_CTL 1 1 q (!(s.queue q).jobs.isEmpty || (s.queue q).resetting).toNat s

/-- R344: the 4-byte interrupt write, when bit `en` of SWQ_IRQD is 1; one that fails translation is dropped and logged. -/
def queueIrq (en q : Nat) (s : State) : State :=
  if !bit (qreg s .SWQ_IRQD q) en || swHalted s then s
  else match swWrite q (q / 64) (qVa (qreg s .SWQ_IRQA q)) (leBytes 4 (qF s .SWQ_IRQD 31 0 q)) none s with
    | .ok t => t
    | .error f => record (.mc (q / 64)) (mkRec .uncorrected (mcStop (q / 64)) 0x33 0x05 f.code) s

/-! ## The pool (08.10) -/

/-- The pool-state entry of buffer `i`: read and written untranslated under key ID 0 (Table 08-9). -/
def poolAddr (s : State) (q i : Nat) : Nat := qF s .SWQ_PSTATE 51 12 q * 4096 + 2 * i
def poolGet (s : State) (q i : Nat) : Nat := (peek s (poolAddr s q i) 2 0).1
def poolSet (q i gen st : Nat) (s : State) : State := pokeNat (poolAddr s q i) 0 2 (gen % 256 * 256 + st % 4) s

/-- Buffers of a queue's pool. -/
def poolCount (s : State) (q : Nat) : Nat := qF s .SWQ_CFG 20 0 q

/-- R365: the lowest free buffer at or after the rotating pointer takes state 1 and the next generation; its handle. -/
def allocBuf (q : Nat) (s : State) : Option (Nat × State) :=
  let n := poolCount s q
  let p := (s.queue q).ptr
  match (List.range n).find? fun k => poolGet s q ((p + k) % n) % 4 == 0 with
  | none => none
  | some k =>
    let i := (p + k) % n
    let gen := (poolGet s q i / 256 + 1) % 256
    some (gen * 2 ^ 30 + q * 2 ^ 20 + i,
      poolSet q i gen 1 (s.modQueue q fun x => { x with ptr := (i + 1) % n }))

/-- The index of a handle, and its generation (Table 08-20). -/
def handleIndex (h : Nat) : Nat := h % 2 ^ 20
def handleGen (h : Nat) : Nat := h / 2 ^ 30 % 256

/-- The result ring is full (R356). -/
def resFull (s : State) (q : Nat) : Bool :=
  ((s.queue q).resNext + 2 ^ 32 - (s.queue q).resHead) % 2 ^ 32 == 2 ^ qF s .SWQ_CFG 39 36 q

/-- R361, R362: a buffer, then its result entry, become visible; the entry takes the next result index. -/
def publishBuf (e : Nat) (j : SwJob) (b : OpenBuf) (s : State) : Except SwFail State :=
  let q := j.queue
  if resFull s q then .error .full
  else
    let qcb := (s.queue q).qcb
    let ri := (s.queue q).resNext
    let lg := qF s .SWQ_CFG 39 36 q
    match swWrite q e ((qcb.getD 6 0).toNat + handleIndex b.handle * 65536) (j.image e b) none s with
    | .error f => .error f
    | .ok s =>
      let w0 := j.seq * 2 ^ 48 + e % 16 * 2 ^ 40 + b.handle % 2 ^ 38
      let w1 := (1 - ri / 2 ^ lg % 2) * 2 ^ 63 + b.data.length
      match swWrite q e ((qcb.getD 5 0).toNat + ri % 2 ^ lg * 16) (leBytes 8 w0 ++ leBytes 8 w1) none
          (poolSet q (handleIndex b.handle) (handleGen b.handle) 2 s) with
      | .error f => .error f
      | .ok s => .ok (s.modQueue q fun x => { x with resNext := (ri + 1) % 2 ^ 32 })

/-- Data bytes of a buffer (R363). -/
def bufCap : Nat := 65536 - 64

/-- Every open buffer of a share is published, in order of partition. -/
def flushBufs (e : Nat) (j : SwJob) (h : SwShare) (s : State) : Except SwFail (SwShare × State) :=
  let rec go : List OpenBuf → SwShare → State → Except SwFail (SwShare × State)
    | [], h, s => .ok ({ h with bufs := [] }, s)
    | b :: bs, h, s =>
      if b.entries = 0 then go bs h s
      else match publishBuf e j b s with
        | .error f => .error f
        | .ok s => go bs { h with emitted := h.emitted + b.entries } s
  go h.bufs h s

/-- Puts an open buffer into the share's list, by partition. -/
def setBuf (b : OpenBuf) : List OpenBuf → List OpenBuf
  | [] => [b]
  | x :: xs => if x.part = b.part then b :: xs else if b.part < x.part then b :: x :: xs else x :: setBuf b xs

/-- The open buffer that has room for `need` bytes of a partition: the one open, or a new one once a full one is published. -/
def roomFor (e : Nat) (j : SwJob) (part first need : Nat) (h : SwShare) (s : State) :
    Except SwFail (OpenBuf × SwShare × State) :=
  let fresh := fun (h : SwShare) (s : State) => match allocBuf j.queue s with
    | none => Except.error SwFail.full
    | some (hd, s) => Except.ok (({ part, first, handle := hd, data := [], entries := 0 } : OpenBuf), h, s)
  match h.bufs.find? fun b => b.part == part with
  | none => fresh h s
  | some b =>
    if b.data.length + need ≤ bufCap then .ok (b, h, s)
    else match publishBuf e j b s with
      | .error f => .error f
      | .ok s => fresh { h with emitted := h.emitted + b.entries, bufs := h.bufs.filter fun x => x.part != part } s

/-- A bitmap: segments of a header and whole doublewords, as many as it takes (Table 08-18). -/
def putBits (e : Nat) (j : SwJob) : Nat → Nat → List Bool → SwShare → State → Except SwFail (SwShare × State)
  | 0, _, _, h, s => .ok (h, s)
  | fuel + 1, row, flags, h, s =>
    if flags.isEmpty then .ok (h, s)
    else match roomFor e j 0 0 24 h s with
      | .error f => .error f
      | .ok (b, h, s) =>
        let seg := min flags.length ((bufCap - b.data.length - 16) / 8 * 64)
        let bits := (flags.take seg).zipIdx.foldl (fun a x => if x.1 then a + 2 ^ x.2 else a) 0
        let data := b.data ++ leBytes 8 (row % 2 ^ 48) ++ leBytes 8 seg ++ leBytes ((seg + 63) / 64 * 8) bits
        putBits e j fuel (row + seg) (flags.drop seg)
          { h with bufs := setBuf { b with data, entries := b.entries + seg } h.bufs } s

/-- Output steps, in order. -/
def putOut (e : Nat) (j : SwJob) : List OutStep → SwShare → State → Except SwFail (SwShare × State)
  | [], h, s => .ok (h, s)
  | .flush :: rest, h, s =>
    (match flushBufs e j h s with
     | .error f => .error f
     | .ok (h, s) => putOut e j rest h s)
  | .bits row flags :: rest, h, s =>
    (match putBits e j (flags.length + 1) row flags h s with
     | .error f => .error f
     | .ok (h, s) => putOut e j rest h s)
  | .ent o :: rest, h, s =>
    (match roomFor e j o.part o.first o.bytes.length h s with
     | .error f => .error f
     | .ok (b, h, s) =>
       putOut e j rest { h with bufs := setBuf { b with data := b.data ++ o.bytes, entries := b.entries + o.entries } h.bufs } s)

/-! ## The end of a share (R330, R331, R360) -/

/-- The share is over: the engine's counts, its done bit, and the record. -/
def shareDone (e : Nat) (j : SwJob) (h : SwShare) (s : State) : State :=
  let s := if h.started && !swHalted s then (match writeCounts j.queue e j h s with | .ok t => t | .error _ => s) else s
  writeRec j.queue j.id (modJob j.queue j.id (fun x => { x with done := x.done ||| (1#16 <<< e) }) (dropShare e j.id s))

/-- What a share still has to publish at its end: its table, or its open buffers. -/
def closeShare (e : Nat) (j : SwJob) (h : SwShare) (s : State) : Except SwFail (SwShare × State) :=
  match putOut e j (if h.started && j.op == 2 then j.aggOut h.agg else []) h s with
  | .error f => .error f
  | .ok (h, s) => flushBufs e j h s

/-- A share that cannot wait ends: buffers with a place in the result ring are published and the others freed (log entry 17). -/
def forceShare (e : Nat) (j : SwJob) (h : SwShare) (s : State) : State :=
  match closeShare e j h s with
  | .ok (h, s) => shareDone e j h s
  | .error _ =>
    let r := h.bufs.foldl (fun (acc : SwShare × State) b =>
      match publishBuf e j b acc.2 with
      | .ok t => ({ acc.1 with emitted := acc.1.emitted + b.entries }, t)
      | .error _ => (acc.1, poolSet j.queue (handleIndex b.handle) (handleGen b.handle) 0 acc.2)) (h, s)
    shareDone e j { r.1 with bufs := [] } r.2

/-- R356: the share is suspended at the start of a unit and the record shows state 3. -/
def suspendShare (e : Nat) (j : SwJob) (h : SwShare) (s : State) : State :=
  let s := putShare e { h with susp := true, resume := false } s
  if j.state = 3 then s else writeRec j.queue j.id (modJob j.queue j.id (fun x => { x with state := 3 }) s)

/-- An engine's share ends with what it still has to publish; with no room, it is suspended. An access that fails then ends the
job. -/
def endShare (e : Nat) (j : SwJob) (h : SwShare) (s : State) : State :=
  if (s.queue j.queue).resetting then forceShare e j h s
  else match closeShare e j h s with
    | .ok (h, s) => shareDone e j h s
    | .error .full => suspendShare e j h s
    | .error f =>
      let s := swLog e f s
      if h.stop then forceShare e j h s else putShare e { h with err := some (f.code, 0), stop := true } s

/-- The home engine tells one engine to stop its share at the start of its next unit; a share that stands at one ends. -/
def stopShare (e : Nat) (j : SwJob) (s : State) : State :=
  match shareOf s e j.id with
  | none => s
  | some h =>
    if !h.started then shareDone e j h s
    else if h.susp then endShare e j { h with stop := true, susp := false } s
    else putShare e { h with stop := true } s

/-- R331: an error reaches the home engine; the first sets the job's code, and every other engine of the group is told. -/
def reportError (e : Nat) (j : SwJob) (code row : Nat) (s : State) : State :=
  if j.err ≠ 0 then s
  else
    let s := writeRec j.queue j.id (modJob j.queue j.id (fun x => { x with err := code, errEng := e, errRow := row }) s)
    (List.range 16).foldl (fun s k => if k = e then s
      else (match jobOf s j.queue j.id with | some j => stopShare k j s | none => s)) s

end Sys2Proof.Machine
end

