-- ==== Sys2Proof/Machine/SweepQueue.lean ====
section
/-! DEFINITION. Job queues: binding, reset, doorbells, the QCB, descriptors and released handles (08.6, 08.7, 08.10). -/

namespace Sys2Proof.Machine

/-- R338: level H, level F and CX0 write the queue registers; another's write is ignored and logged. -/
def queueWriter : Req → Bool
  | .core _ l _ => l == .H || l == .F
  | .cx k => k == 0
  | _ => false

/-- A write of a queue register, by a requester that may make it. -/
def queueWrite (r : Req) (q : Nat) (f : State → State) (s : State) : State :=
  if 1024 ≤ q then s
  else if queueWriter r then f s
  else refuse (.fabric (mcStop (q / 64))) (mcStop (q / 64)) r s

/-! ## Binding (R340, Table 08-7) -/

/-- The pages of a queue's pool-state table. -/
def poolPages (s : State) (q : Nat) : List Nat :=
  (List.range ((2 * poolCount s q + 4095) / 4096)).map fun i => qF s .SWQ_PSTATE 51 12 q * 4096 + i * 4096

/-- The first binding check that fails, 0 for none. -/
def bindErr (s : State) (q : Nat) : Nat :=
  let x := qreg s .SWQ_CTX q
  let group := (List.range 16).filter fun e => (qGroup s q).getLsbD e
  let quads := (group.map chanQuad).eraseDups
  if !bit (s.reg .SAM_RADDR 0 (qRegion s q)) 63 ∨ qGranule s q < 4096 then 1
  else if bit (s.reg .CCH_MODE) 0 ∧ 1 < quads.length then 2
  else if (q / 64 :: group).any fun e => !swInService s e then 3
  else if bit x 63 ∧ (!bit x 59 ∨ fld x 51 40 = 0 ∨ fld x 31 16 = 0 ∨ 4096 < fld x 31 16) then 4
  else if 12 < qF s .SWQ_CFG 47 44 q ∨ 1048576 < poolCount s q then 5
  else if (poolPages s q).any fun p => if bit x 63 then !pageIn s p 3 else !inRegion s (mcStop (q / 64)) p then 6
  else if bit (qreg s .SWQ_CTL q) 63 then 7
  else 0

/-- Every pool-state entry rewritten: state 0, with the generation `gen` gives. -/
def initPool (q : Nat) (gen : State → Nat → Nat) (s : State) : State :=
  (List.range (poolCount s q)).foldl (fun t i => poolSet q i (gen s i) 0 t) s

/-- The QCB line, as the home engine reads it in the queue's context (R347). -/
def readQcb (q : Nat) (s : State) : Except SwFail (List W64 × State) :=
  match swRead q (q / 64) (qVa (qreg s .SWQ_QCB q)) 64 none s with
  | .error f => .error f
  | .ok (bs, s) => .ok ((List.range 8).map fun k => w64 (bytesNat bs (8 * k) 8), s)

/-- R347: a read of the QCB that fails is logged in the memory-stop bank. -/
def qcbFailed (q : Nat) (f : SwFail) (s : State) : State :=
  match f with
  | .err 0x0D _ _ _ | .err 0x11 _ _ _ => swLog (q / 64) f s
  | _ => record (.mc (q / 64)) (mkRec .uncorrected (mcStop (q / 64)) 0x33 0x05 f.code) s

/-- R340: the binding is checked; the pool starts free with generation 0 and the ring positions come from the QCB. The first result
index is its res_head. A QCB that cannot be read leaves the positions as they were (log entry 17). -/
def bindQueue (q : Nat) (s : State) : State :=
  let code := bindErr s q
  if code ≠ 0 then setQF .SWQ_CTL 59 56 q code s
  else
    let s := (initPool q (fun _ _ => 0) s).modQueue q fun x => { x with ptr := 0 }
    let s := match readQcb q s with
      | .error f => qcbFailed q f s
      | .ok (w, s) => s.modQueue q fun x =>
          { x with qcb := w, subHead := fld (w.getD 1 0) 31 0, relHead := fld (w.getD 1 0) 63 32,
                   resHead := fld (w.getD 2 0) 31 0, resNext := fld (w.getD 2 0) 31 0 }
    setQF .SWQ_CTL 0 0 q 1 s

/-- A write of 1 to enable (R340, R346). A disabled queue stays so until it is reset (R367). -/
def enableQueue (q : Nat) (s : State) : State :=
  if (s.queue q).resetting then s.modQueue q fun x => { x with latched := true }
  else if bit (qreg s .SWQ_CTL q) 0 then s
  else if bit (qreg s .SWQ_CTL q) 1 && !bit (qreg s .SWQ_CTL q) 63 then setQF .SWQ_CTL 0 0 q 1 s
  else bindQueue q s

/-- SWQ_ENABLE (R338, R340, R346). -/
def execSwqEnable (r : Req) (q : Nat) (s : State) : Host.Outcome State Fault Refusal :=
  answer s (queueWrite r q (enableQueue q) s)

/-- A write of 0 to enable: the queue accepts no further job (R346). -/
def disableQueue (q : Nat) (s : State) : State :=
  (setQF .SWQ_CTL 0 0 q 0 s).modQueue q fun x => { x with latched := false, reading := false }

/-- SWQ_DISABLE (R338, R346). -/
def execSwqDisable (r : Req) (q : Nat) (s : State) : Host.Outcome State Fault Refusal :=
  answer s (queueWrite r q (disableQueue q) s)

/-! ## Reset (R345) -/

/-- Steps 3 to 5 of R345, once every job has ended; a latched enable follows (R346). -/
def resetDone (q : Nat) (s : State) : State :=
  if !(s.queue q).resetting || !(s.queue q).jobs.isEmpty then s
  else
    let s := initPool q (fun s i => poolGet s q i / 256 + 1) s
    let s := [(63, 63), (31, 28), (47, 32), (27, 20), (0, 0)].foldl (fun s f => setQF .SWQ_CTL f.1 f.2 q 0 s) s
    let go := (s.queue q).latched
    let s := syncBusy q (s.modQueue q fun x => { x with resetting := false, latched := false, reading := false })
    if go then bindQueue q s else s

/-- Steps 1 and 2 of R345: every job ends with ABORTED at the start of each engine's next unit; what has not been forwarded is
dropped. -/
def resetQueue (q : Nat) (s : State) : State :=
  if (s.queue q).resetting then s
  else
    let abort := fun (j : SwJob) => if j.err = 0 then { j with err := 0x0F, errEng := q / 64 } else j
    let s := s.modQueue q fun x => { x with resetting := true, reading := false, jobs := x.jobs.map abort }
    let s := syncBusy q s
    let s := (s.queue q).jobs.foldl (fun s j => (List.range 16).foldl (fun s e =>
      match jobOf s q j.id with | some j => stopShare e j s | none => s) s) s
    resetDone q s

/-- SWQ_RESET (R338, R345). -/
def execSwqReset (r : Req) (q : Nat) (s : State) : Host.Outcome State Fault Refusal :=
  answer s (queueWrite r q (resetQueue q) s)

/-! ## Doorbells and polls (R348) -/

/-- Whether the home engine of a queue reads its QCB: the queue is enabled and no Finish has begun. -/
def queueLive (s : State) (q : Nat) : Bool :=
  decide (q < 1024) && bit (qreg s .SWQ_CTL q) 0 && !(s.queue q).resetting && !swHalted s

/-- SWQ_DB (R348): a doorbell before the read begins merges into it. -/
def execSwqDb (q : Nat) (s : State) : Host.Outcome State Fault Refusal :=
  answer s (if queueLive s q then s.modQueue q fun x => { x with reading := true } else s)

/-- Whether a queue is polled: poll_us 0 leaves it to doorbells, but acts as 1 when world is 1 (Table 08-10). -/
def polled (s : State) (q : Nat) : Bool := decide (qF s .SWQ_CFG 63 56 q ≠ 0) || bit (qreg s .SWQ_CTX q) 63

/-- QCB_POLL (R348). -/
def execQcbPoll (q : Nat) (s : State) : Host.Outcome State Fault Refusal :=
  answer s (if queueLive s q && polled s q then s.modQueue q fun x => { x with reading := true } else s)

/-! ## Released handles (R366, R367) -/

/-- Suspended shares of a queue may resume (R356). -/
def mayResume (q : Nat) (s : State) : State :=
  (List.range 16).foldl (fun s e => s.modEngine e fun n =>
    { n with shares := n.shares.map fun h => if h.queue = q && h.susp then { h with resume := true } else h }) s

/-- A saturating count in SWQ_CTL goes up by one. -/
def bumpQF (hi lo q : Nat) (s : State) : State := s.bumpReg .SWQ_CTL hi lo (q / 64) (q % 64)

/-- R366: a handle is checked for owner and generation, and its buffer freed. -/
def releaseHandle (q : Nat) (v : W64) (s : State) : State :=
  if bit (qreg s .SWQ_CTL q) 63 then s
  else if fld v 63 38 ≠ 0 ∨ fld v 29 20 ≠ q ∨ poolCount s q ≤ fld v 19 0 then
    let s := queueIrq 32 q (record (.mc (q / 64)) (mkRec .uncorrected (mcStop (q / 64)) 0x33 0x10 0)
      (setQF .SWQ_CTL 31 28 q (min 8 (qF s .SWQ_CTL 31 28 q + 1)) s))
    if qF s .SWQ_CTL 31 28 q = 8 then
      queueIrq 32 q ((setQF .SWQ_CTL 0 0 q 0 (setQF .SWQ_CTL 63 63 q 1 s)).modQueue q fun x => { x with reading := false })
    else s
  else
    let p := poolGet s q (fld v 19 0)
    if p % 4 ≠ 2 ∨ p / 256 ≠ fld v 37 30 then queueIrq 32 q (bumpQF 47 32 q s)
    else mayResume q (poolSet q (fld v 19 0) (p / 256) 0 s)

/-- SWQ_RELDB (R366, R367). -/
def execSwqReldb (q : Nat) (handle : W64) (s : State) : Host.Outcome State Fault Refusal :=
  answer s (if decide (q < 1024) && !swHalted s then releaseHandle q handle s else s)

/-! ## A read of the QCB (R347 to R350) -/

/-- Whether every engine of the group has a free inbox entry (R350). -/
def inboxFree (s : State) (group : BitVec 16) : Bool :=
  (List.range 16).all fun e => !group.getLsbD e || decide (((s.engine e).shares.filter fun h => !h.started).length < 64)

/-- A share that waits in an inbox. -/
def newShare (q id : Nat) : SwShare :=
  { job := id, queue := q, started := false, next := 0, ended := 0, consumed := 0, emitted := 0, susp := false, resume := false,
    stop := false, err := none, bufs := [], agg := [], operand := [], uc := .cold, inited := false, scratch := [] }

/-- R349: a descriptor is marked queued in its completion record and sent to every inbox of the group; without a record it is
dropped and counted. -/
def forwardJob (q : Nat) (words : List W64) (s : State) : State :=
  let id := s.sweep.nextJob
  let group := qGroup s q
  let j : SwJob := { id, queue := q, words, group, done := 0, err := 0, errEng := 0, errRow := 0, state := 1 }
  match swPieces q (q / 64) .write none 2 j.recAddr 16 s with
  | .error _ => bumpQF 27 20 q s
  | .ok (_, s) =>
    let s := { s with sweep := { s.sweep with nextJob := id + 1 } }
    let s := writeRec q id (s.modQueue q fun x => { x with jobs := x.jobs ++ [j] })
    syncBusy q ((List.range 16).foldl (fun s e =>
      if group.getLsbD e then syncInbox e (s.modEngine e fun n => { n with shares := n.shares ++ [newShare q id] }) else s) s)

/-- Descriptors from sub_head on, as many as the read says and the inboxes take. -/
def takeJobs (q : Nat) : Nat → State → State
  | 0, s => s
  | left + 1, s =>
    let x := s.queue q
    if !inboxFree s (qGroup s q) then s
    else match swRead q (q / 64) ((x.qcb.getD 3 0).toNat + x.subHead % 2 ^ qF s .SWQ_CFG 47 44 q * 128) 128 none s with
      | .error f => qcbFailed q f s
      | .ok (bs, s) =>
        takeJobs q left ((forwardJob q ((List.range 16).map fun k => w64 (bytesNat bs (8 * k) 8)) s).modQueue q
          fun x => { x with subHead := (x.subHead + 1) % 2 ^ 32 })

/-- Handles from rel_head on; a queue that becomes disabled takes no more (R367). -/
def takeHandles (q : Nat) : Nat → State → State
  | 0, s => s
  | left + 1, s =>
    let x := s.queue q
    if bit (qreg s .SWQ_CTL q) 63 then s
    else match swRead q (q / 64) ((x.qcb.getD 4 0).toNat + x.relHead % 2 ^ qF s .SWQ_CFG 43 40 q * 8) 8 none s with
      | .error f => qcbFailed q f s
      | .ok (bs, s) =>
        takeHandles q left ((releaseHandle q (w64 (leNat bs)) s).modQueue q
          fun x => { x with relHead := (x.relHead + 1) % 2 ^ 32 })

/-- How far a free-running 32-bit index stands ahead of another. -/
def ahead (a b : Nat) : Nat := (BitVec.ofNat 32 a - BitVec.ofNat 32 b).toNat

/-- What a read of the QCB gives: descriptors, handles, the new heads, and a larger res_head (R348, R356). -/
def useQcb (q : Nat) (w : List W64) (s : State) : State :=
  let s := s.modQueue q fun x => { x with qcb := w }
  let x := s.queue q
  let s := takeJobs q (ahead (fld (w.getD 0 0) 31 0) x.subHead) s
  let s := takeHandles q (ahead (fld (w.getD 0 0) 63 32) x.relHead) s
  let y := s.queue q
  let s := match swWrite q (q / 64) (qVa (qreg s .SWQ_QCB q) + 8) (leBytes 8 (y.subHead + y.relHead * 2 ^ 32)) none s with
    | .ok t => t
    | .error f => qcbFailed q f s
  let d := ahead (fld (w.getD 2 0) 31 0) y.resHead
  if d = 0 ∨ 2 ^ 31 ≤ d then s
  else mayResume q (s.modQueue q fun x => { x with resHead := fld (w.getD 2 0) 31 0 })

/-- QCB_READ_RETURN (R347 to R350): the line that was asked for arrives with a fabric status. -/
def execQcbReadReturn (q status : Nat) (s : State) : Host.Outcome State Fault Refusal :=
  answer s (if !queueLive s q || !(s.queue q).reading then s
    else
      let s := s.modQueue q fun x => { x with reading := false }
      if status ≠ 0 then qcbFailed q (.err 0x11 0 0 true) s
      else match readQcb q s with
        | .error f => qcbFailed q f s
        | .ok (w, s) => useQcb q w s)

end Sys2Proof.Machine
end

