-- ==== Sys2Proof/Machine/SweepEngine.lean ====
section
/-! DEFINITION. Engines: starting jobs, units, errors and the ends of jobs, stop and restart (08.1, 08.2, 08.5, 08.8, 08.12, 09.8). -/

namespace Sys2Proof.Machine

/-! ## Customer operations (09.5, 09.8) -/

/-- The entry of a customer opcode in the loaded module (Table 09-8); 0 when it is not valid (R396, R397). -/
def ucEntry (s : State) (op : Nat) : W64 :=
  match s.sweep.loader.loaded with
  | some m => let e := m.entries.getD (op - 0x80) 0; if bit e 63 then e else 0
  | none => 0

/-- Fields of an entry. -/
def entKind (e : W64) : Nat := fld e 62 61
def entBytes (e : W64) : Nat := fld e 55 48 * 65536
def entInit (e : W64) : Nat := fld e 35 24
def entBody (e : W64) : Nat := fld e 11 0

/-- R399: what a customer descriptor must keep beside Table 08-15. -/
def customerOk (e : W64) (G : Nat) (j : SwJob) : Bool :=
  j.commonOk G && j.colsOk G && decide (1 ≤ j.ncols) && decide (j.ncols ≤ fld e 47 45) &&
    (fld e 44 40).testBit j.outForm && decide (j.outForm ≤ 4) && j.pkind == 0

/-- Whether a job needs the operator area (R336, R400). -/
def needsArea (s : State) (j : SwJob) : Bool :=
  if j.customer then decide (entBytes (ucEntry s j.op) ≠ 0)
  else j.pkind == 3 || j.pkind == 4 || j.op == 2 || j.op == 3

/-- The error code a job ends with at its start, 0 for none (R336, R351, R399, Table 09-11). -/
def startFault (s : State) (j : SwJob) : Nat :=
  let G := qGranule s j.queue
  if j.customer then
    let e := ucEntry s j.op
    if bit (qreg s .SWQ_CTX j.queue) 63 ∧ !bit (s.reg .SWU_POLICY) 2 then 0x26
    else if e = 0 then 0x20
    else if !customerOk e G j then 0x07
    else 0
  else if !j.ok G then 0x07
  else if 1536 * 1024 < j.areaBytes then 0x08
  else 0

/-! ## Starting a job (R353 to R355) -/

/-- The job of a share. -/
def shareJob (s : State) (h : SwShare) : Option SwJob := jobOf s h.queue h.job

/-- Whether an engine runs: in service, not stopping or stopped, and no Finish. -/
def engineRuns (s : State) (e : Nat) : Bool := swInService s e && s.regF .SW_STATUS 1 0 e == 0 && !swHalted s

/-- The share that an engine works on: started, not suspended, with no report outstanding. -/
def activeShare (s : State) (e : Nat) : Option SwShare := (s.engine e).shares.find? fun h => h.started && !h.susp && h.err.isNone

/-- A started share that is neither suspended nor over: while one stands, no other job starts. -/
def busyShare (s : State) (e : Nat) : Bool := (s.engine e).shares.any fun h => h.started && !h.susp

/-- Whether a share in the inbox may start: its queue has none before it on this engine (R354), no other job holds an operator area
it needs (R353, R355), and it is no customer job while the loader holds those (R395). -/
def mayStart (s : State) (e : Nat) (h : SwShare) : Bool :=
  match shareJob s h with
  | none => false
  | some j =>
    !h.started && ((s.engine e).shares.takeWhile fun x => x.job != h.job).all (fun x => x.queue != h.queue) &&
      !(j.customer && s.sweep.loader.hold) &&
      !(needsArea s j && (s.engine e).shares.any fun x => x.started && (shareJob s x).any (needsArea s))

/-- The list or filter that a job's predicate needs, read into the operator area (R336). -/
def loadOperand (e : Nat) (j : SwJob) (s : State) : Except SwFail (List Byte × State) :=
  if j.customer then .ok ([], s)
  else match j.pkind with
    | 3 => swRead j.queue e j.a.toNat (8 * j.b.toNat) none s
    | 4 => swRead j.queue e j.a.toNat (2 ^ fld j.b 4 0 / 8) none s
    | _ => .ok ([], s)

/-- A share ends with an error: its unit is discarded, and the report goes to the home engine (R330, R331). -/
def failShare (e : Nat) (h : SwShare) (code row : Nat) (s : State) : State :=
  putShare e { h with started := true, err := some (code, row), stop := true } s

/-- A share starts. The record goes from state 1 to 2. -/
def startShare (e : Nat) (h : SwShare) (j : SwJob) (s : State) : State :=
  if h.stop then shareDone e j h s
  else
    let code := startFault s j
    if code ≠ 0 then failShare e h code 0 s
    else match loadOperand e j s with
      | .error f => failShare e h f.code 0 (swLog e f s)
      | .ok (bs, s) =>
        let s := putShare e { h with started := true, operand := bs } s
        if j.state = 1 then writeRec j.queue j.id (modJob j.queue j.id (fun x => { x with state := 2 }) s) else s

/-- JOB_START (R353): the oldest job that may start. -/
def execJobStart (e : Nat) (s : State) : Host.Outcome State Fault Refusal :=
  answer s (if !engineRuns s e || busyShare s e then s
    else match (s.engine e).shares.find? (mayStart s e) with
      | none => s
      | some h => (match shareJob s h with
        | none => s
        | some j => startShare e h j s))

/-! ## Units (R320, R321, R324 to R330) -/

/-- Whether engine `e` processes unit `i`: its channel holds the unit's first byte (R320). A unit whose first byte lies in no
channel of the group falls to the group's first engine (log entry 17). -/
def ownsUnit (s : State) (e : Nat) (j : SwJob) (i : Nat) : Bool :=
  let first := (List.range 16).find? fun k => j.group.getLsbD k
  let va := (j.unitBase + i * j.size (qGranule s j.queue)) % 2 ^ 64
  match swXlate s j.queue e va (if j.op = 5 then .write else .read) with
  | .error _ => first == some e
  | .ok t =>
    match decodeAddr s (mcStop e) (t.pa + va % 2 ^ t.size) with
    | .mem _ ch _ => if j.group.getLsbD ch then ch == e else first == some e
    | _ => first == some e

/-- The next unit of engine `e` from `i` on. -/
def findUnit (s : State) (e : Nat) (j : SwJob) : Nat → Nat → Option Nat
  | 0, _ => none
  | left + 1, i => if ownsUnit s e j i then some i else findUnit s e j left (i + 1)
def nextUnit (s : State) (e : Nat) (j : SwJob) (i : Nat) : Option Nat :=
  findUnit s e j (j.units (qGranule s j.queue) - i) i

/-- R324, R326: whether a range lies within one page of the job's translation. -/
def onePage (s : State) (q e va len : Nat) (kind : Access) : Except SwFail Unit :=
  match swXlate s q e (va % 2 ^ 64) kind with
  | .error f => .error f
  | .ok t =>
    let pg := swPageLog (swCtx s q e) t
    if va / 2 ^ pg = (va + len - 1) / 2 ^ pg then .ok .ni else .error (.err 0x06 0 0 true)

/-- Column `c` of block `i`, read, checked in the order of Table 08-4 and decoded (R329); an error carries the block's first_row,
0 before its header has been read. -/
def readColumn (e : Nat) (j : SwJob) (i c : Nat) (s : State) : Except (SwFail × Nat) (Column × State) :=
  let q := j.queue
  let S := j.size (qGranule s q)
  let va := j.col c + i * S
  let reg := some (qRegion s q)
  match onePage s q e va S .read with
  | .error f => .error (f, 0)
  | .ok _ =>
    match swRead q e va 48 reg s with
    | .error f => .error (f, 0)
    | .ok (h, _) =>
      match headerFault S h with
      | some code => .error (.err code 0 0 true, hdrFirstRow h)
      | none =>
        match swRead q e va (hdrTotal h) reg s with
        | .error f => .error (f, hdrFirstRow h)
        | .ok (body, s) =>
          match decodeBlock j.crcFlag body with
          | .error code => .error (.err code 0 0 true, hdrFirstRow h)
          | .ok col => .ok (col, s)

/-- Columns `c`, `c + 1`, … of block `i`. -/
def readColumns (e : Nat) (j : SwJob) (i : Nat) : Nat → Nat → State → Except (SwFail × Nat) (List Column × State)
  | 0, _, s => .ok ([], s)
  | left + 1, c, s =>
    match readColumn e j i c s with
    | .error f => .error f
    | .ok (col, s) =>
      match readColumns e j i left (c + 1) s with
      | .error f => .error f
      | .ok (cols, s) => .ok (col :: cols, s)

/-- The columns of unit `i`, with the last checks of Table 08-4, order 8, across columns. -/
def readUnit (e : Nat) (j : SwJob) (i : Nat) (s : State) : Except (SwFail × Nat) (List Column × State) :=
  match readColumns e j i j.ncols 0 s with
  | .error f => .error f
  | .ok (cols, s) =>
    let c0 := cols.headD ⟨0, 0, []⟩
    if cols.any fun c => decide (c.rows ≠ c0.rows) || decide (c.firstRow ≠ c0.firstRow) then
      .error (.err 0x04 0 0 true, c0.firstRow)
    else if j.op == 2 && (cols.getD 1 c0).vals.any fun g => decide (j.n ≤ g.toNat) then .error (.err 0x04 0 0 true, c0.firstRow)
    else .ok (cols, s)

/-- A unit ends: its rows or chunk and results are counted and the count words written; the next unit is looked for after it. -/
def unitDone (e : Nat) (j : SwJob) (h : SwShare) (i cons emit : Nat) (s : State) : State :=
  let h := { h with next := i + 1, ended := h.ended + 1, consumed := h.consumed + cons, emitted := h.emitted + emit }
  match writeCounts j.queue e j h s with
  | .ok s => putShare e h s
  | .error f => failShare e h f.code 0 (swLog e f s)

/-- The output of a unit reaches its buffers, or the unit's output is discarded: suspended with no room (R356), else an error
(R330). `s₀` and `h₀` are the machine and the share at the start of the unit. -/
def commitUnit (e : Nat) (j : SwJob) (h₀ h : SwShare) (i row cons emit : Nat) (out : List OutStep) (s₀ s : State) : State :=
  match putOut e j out h s with
  | .ok (h, s) => unitDone e j h i cons emit s
  | .error .full => suspendShare e j h₀ s₀
  | .error f => failShare e h₀ f.code row (swLog e f s₀)

/-- A unit of SCAN, AGG or PART. -/
def blockUnit (e : Nat) (j : SwJob) (h : SwShare) (i : Nat) (s : State) : State :=
  match readUnit e j i s with
  | .error (f, row) => failShare e h f.code row (swLog e f s)
  | .ok (cols, t) =>
    let c0 := cols.headD ⟨0, 0, []⟩
    let sel := (List.range c0.rows).filter fun r => j.selects h.operand (c0.vals.getD r 0)
    match j.op with
    | 2 => commitUnit e j h { h with agg := j.aggUnit cols sel h.agg } i c0.firstRow c0.rows 0 [] s t
    | 3 => commitUnit e j h h i c0.firstRow c0.rows 0 (j.partOut cols sel) s t
    | _ => commitUnit e j h h i c0.firstRow c0.rows (if j.outForm = 0 then sel.length else 0) (j.scanOut cols sel) s t

/-- What a chunk writes, and where (R324, Table 08-5). -/
def chunkWrite (e : Nat) (j : SwJob) (i : Nat) (s : State) : Except SwFail State :=
  let q := j.queue
  let S := j.size (qGranule s q)
  let len := min S (j.count - i * S)
  let reg := some (qRegion s q)
  if j.op = 5 then
    match onePage s q e (j.dst + i * S) len .write with
    | .error f => .error f
    | .ok _ => swWrite q e (j.dst + i * S) ((List.range len).map fun k => lineByte (j.a.setWidth 512) (k % 8)) reg s
  else
    match onePage s q e (j.src + i * S) len .read with
    | .error f => .error f
    | .ok _ =>
      match swRead q e (j.src + i * S) len reg s with
      | .error f => .error f
      | .ok (bs, s) =>
        if j.op = 4 then swWrite q e (j.dst + i * S) bs none s
        else swWrite q e (j.dst + 4 * i) (leBytes 4 (crc32c bs)) none s

/-- A unit of COPY, FILL or CRC. They publish no buffer, so no result counts as emitted. -/
def chunkUnit (e : Nat) (j : SwJob) (h : SwShare) (i : Nat) (s : State) : State :=
  match chunkWrite e j i s with
  | .error f => failShare e h f.code i (swLog e f s)
  | .ok t => unitDone e j h i 1 0 t

/-! ## Customer bodies (R401 to R403) -/

/-- Lanes of group `g` of a column: values, 0 beyond the end, and the valid lanes. -/
def groupLanes (c : Column) (g : Nat) : List W64 × Byte :=
  ((List.range 8).map fun i => c.vals.getD (8 * g + i) 0,
    BitVec.ofNat 8 ((List.range 8).foldl (fun a i => if 8 * g + i < c.rows then a + 2 ^ i else a) 0))

/-- Lanes written to an x register. -/
def Ucode.setX (u : Ucode) (x : Nat) (vs : List W64) : Ucode :=
  { u with x := vs.zipIdx.foldl (fun m v => NMap.set 0 m (x * 8 + v.2) v.1) u.x }

/-- An s register; s0 reads 0 and discards writes (Table 09-1). -/
def Ucode.getS (u : Ucode) (r : Nat) : W64 := if r = 0 then 0 else NMap.get 0 u.s r
def Ucode.setS (u : Ucode) (r : Nat) (v : W64) : Ucode := if r = 0 then u else { u with s := NMap.set 0 u.s r v }

/-- A mask register; m0 reads 0xFF and discards writes. -/
def Ucode.getM (u : Ucode) (r : Nat) : Byte := if r = 0 then 0xFF else NMap.get 0 u.m r
def Ucode.setM (u : Ucode) (r : Nat) (v : Byte) : Ucode := if r = 0 then u else { u with m := NMap.set 0 u.m r v }

/-- A lane. -/
def Ucode.lane (u : Ucode) (x i : Nat) : W64 := NMap.get 0 u.x (x * 8 + i)

/-- The sequencer enters a routine: the link stack is empty (R385). -/
def Ucode.enter (u : Ucode) (phase : UcPhase) (off : Nat) : Ucode :=
  { u with phase, pc := 0x3000 + off, link := [], target := none }

/-- The body is entered for a group of a kind 0 job: values in x0, valid lanes in m7, the row ID of lane 0 in s1, and FIRST. -/
def enterGroup (ent : W64) (first : Bool) (g : Nat) (u : Ucode) : Ucode :=
  let c := u.cols.headD ⟨0, 0, []⟩
  let l := groupLanes c g
  let u := ((u.setX 0 l.1).setM 7 l.2).setS 1 (w64 (c.firstRow + 8 * g))
  { u.enter .body (entBody ent) with c := (u.c &&& 0x7F) ||| (if first then 0x80 else 0), group := g, lanes := l.2,
                                     lane0 := some (8 * g) }

/-- A customer unit starts: kind 0 at its first group, kind 1 once for the unit (R402, R403). -/
def startUnit (e : Nat) (j : SwJob) (h : SwShare) (i : Nat) (s : State) : State :=
  let ent := ucEntry s j.op
  match readUnit e j i s with
  | .error (f, row) => failShare e h f.code row (swLog e f s)
  | .ok (cols, s) =>
    let u := { h.uc with unit := i, cols, groups := [], lane0 := none, lanes := 0, out := [] }
    let u := if entKind ent = 0 then enterGroup ent (h.ended == 0) 0 u
      else { u.enter .body (entBody ent) with c := (u.c &&& 0x7F) ||| (if h.ended = 0 then 0x80 else 0) }
    putShare e { h with uc := u } s

/-- The next step of a customer job at a unit boundary: its init first (R401), then the unit. -/
def customerUnit (e : Nat) (j : SwJob) (h : SwShare) (i : Nat) (s : State) : State :=
  let ent := ucEntry s j.op
  if h.inited then startUnit e j h i s
  else
    let h := { h with inited := true, uc := .cold, scratch := [] }
    if entInit ent = 0xFFF then startUnit e j h i s
    else putShare e { h with uc := h.uc.enter .init (entInit ent) } s

/-- The next unit of an engine's job, or the end of its share (R321, R330, R331). -/
def runUnit (e : Nat) (h : SwShare) (j : SwJob) (s : State) : State :=
  if h.stop then endShare e j h s
  else match nextUnit s e j h.next with
    | none => endShare e j h s
    | some i =>
      if j.customer then customerUnit e j h i s
      else if j.blocks then blockUnit e j h i s
      else chunkUnit e j h i s

/-- SWEEP_UNIT (R321). While a customer routine runs, its words go on instead. -/
def execSweepUnit (e : Nat) (s : State) : Host.Outcome State Fault Refusal :=
  answer s (if !engineRuns s e then s
    else match activeShare s e with
      | none => s
      | some h => if h.uc.phase ≠ .idle then s else (match shareJob s h with
        | none => s
        | some j => runUnit e h j s))

/-! ## Suspension, errors and ends (R331, R356, R357, R360) -/

/-- JOB_RESUME (R356): a suspended job that may resume does, and its record shows state 2 again. -/
def execJobResume (e : Nat) (s : State) : Host.Outcome State Fault Refusal :=
  answer s (if !engineRuns s e then s
    else match (s.engine e).shares.find? fun h => h.susp && h.resume with
      | none => s
      | some h =>
        let s := putShare e { h with susp := false, resume := false } s
        writeRec h.queue h.job (modJob h.queue h.job (fun x => { x with state := 2 }) s))

/-- SUSPENSION_TIMEOUT (R344, R357): the job ends with OUTPUT_STALL. Its time does not run on a stopped engine (R370). -/
def execSuspensionTimeout (e q : Nat) (s : State) : Host.Outcome State Fault Refusal :=
  answer s (if !engineRuns s e || qF s .SWQ_CFG 55 48 q == 0 then s
    else match (s.engine e).shares.find? fun h => h.susp && h.queue == q with
      | none => s
      | some h => (match shareJob s h with
        | none => s
        | some j =>
          let s := reportError e j 0x0E 0 s
          (match shareJob s h with
           | none => s
           | some j => forceShare e j { h with susp := false } (if j.err = 0x0E then queueIrq 32 q s else s))))

/-- SWEEP_ERROR_REPORT (R331). -/
def execSweepErrorReport (e q : Nat) (s : State) : Host.Outcome State Fault Refusal :=
  answer s (match (s.engine e).shares.find? fun h => h.queue == q && h.err.isSome with
    | none => s
    | some h => (match shareJob s h, h.err with
      | some j, some (code, row) =>
        let s := reportError e j code row s
        (match shareJob s h with
         | none => s
         | some j => endShare e j { h with err := none } s)
      | _, _ => s))

/-- JOB_END (R344, R360): every engine of the group has ended its share. -/
def execJobEnd (q : Nat) (s : State) : Host.Outcome State Fault Refusal :=
  answer s (match (s.queue q).jobs.find? fun j => j.done == j.group with
    | none => s
    | some j =>
      let s := writeRec q j.id (modJob q j.id (fun x => { x with state := if j.err = 0 then 4 else 5 }) s)
      let s := s.modQueue q fun x => { x with jobs := x.jobs.filter fun y => y.id != j.id }
      let s := if j.irq then queueIrq 33 q s else s
      resetDone q (syncBusy q s))

/-! ## Engine stop and restart (08.12) -/

/-- R369: only level F, CX1 and CX2 write SW_CTL; another's write is ignored without error. -/
def swCtlWriter : Req → Bool
  | .core _ l _ => l == .F
  | .cx k => k == 1 || k == 2
  | _ => false

/-- SW_CTL.run cleared: a running engine enters stopping (R370). -/
def stopEngine (e : Nat) (s : State) : State :=
  let s := s.setRegF .SW_CTL 0 0 0 e
  if s.regF .SW_STATUS 1 0 e = 0 then s.setRegF .SW_STATUS 1 0 1 e else s

/-- SW_STOP (R369, R370). -/
def execSwStop (r : Req) (e : Nat) (s : State) : Host.Outcome State Fault Refusal :=
  answer s (if swCtlWriter r && decide (e < 16) then stopEngine e s else s)

/-- SW_CTL.run set: a stopped engine runs again, and a stopping one will (R371). -/
def runEngine (e : Nat) (s : State) : State :=
  let s := s.setRegF .SW_CTL 0 0 1 e
  match s.regF .SW_STATUS 1 0 e with
  | 1 => s.setRegF .SW_STATUS 2 2 1 e
  | 2 => s.setRegF .SW_STATUS 1 0 0 e
  | _ => s

/-- SW_RUN (R369, R371). -/
def execSwRun (r : Req) (e : Nat) (s : State) : Host.Outcome State Fault Refusal :=
  answer s (if swCtlWriter r && decide (e < 16) then runEngine e s else s)

/-- Whether an engine is within a unit: a customer routine runs on it. -/
def midUnit (s : State) (e : Nat) : Bool := (s.engine e).shares.any fun h => h.uc.phase != .idle

/-- ENGINE_STOP_COMPLETE (R370, R371). -/
def execEngineStopComplete (e : Nat) (s : State) : Host.Outcome State Fault Refusal :=
  answer s (if 16 ≤ e ∨ s.regF .SW_STATUS 1 0 e ≠ 1 ∨ midUnit s e then s
    else if bit (s.reg .SW_STATUS e) 2 then (s.setRegF .SW_STATUS 1 0 0 e).setRegF .SW_STATUS 2 2 0 e
    else s.setRegF .SW_STATUS 1 0 2 e)

/-- R372: an engine is taken out of service: every job on it ends with ENGINE, and every queue whose group or home includes it
clears enable. -/
def engineOut (e : Nat) (s : State) : State :=
  let s := (s.setRegF .SW_STATUS 1 0 3 e).setRegF .SW_STATUS 2 2 0 e
  let s := (s.engine e).shares.foldl (fun s h => match shareJob s h with
    | none => s
    | some j =>
      let s := reportError e j 0x10 0 s
      (match shareJob s h with
       | none => s
       | some j => forceShare e j { h with susp := false, err := none, uc := { h.uc with phase := .idle } } s)) s
  (List.range 1024).foldl (fun s q =>
    if q / 64 == e || (qGroup s q).getLsbD e then disableQueue q s else s) s

/-- R373: every engine abandons every job, and nothing further is written. -/
def abandonJobs (s : State) : State :=
  let s := { s with sweep := { s.sweep with engines := s.sweep.engines.map (fun n => (n.1, { n.2 with shares := [] })),
                                            queues := s.sweep.queues.map fun x => (x.1, { x.2 with jobs := [], reading := false }) } }
  (List.range 16).foldl (fun s e => syncInbox e s) s

end Sys2Proof.Machine
end

