-- ==== Sys2Proof/Machine/Loader.lean ====
section
/-! DEFINITION. The loader of customer microcode: commands, checks, hold and write of the control stores (09.5, 09.7). -/

namespace Sys2Proof.Machine

/-! ## Commands (R391, R392) -/

/-- R391: CX0 at any time, CX3 and levels H and F as SWU_POLICY allows. -/
def loaderTakes (s : State) : Req → Bool
  | .cx 0 => true
  | .cx 3 => bit (s.reg .SWU_POLICY) 1
  | .core _ l _ => (l == .H || l == .F) && bit (s.reg .SWU_POLICY) 0
  | _ => false

/-- A write of SWU_CMD or SWU_SRC: while busy it is ignored and sets collide (R392). -/
def loaderWrite (f : State → State) (s : State) : State :=
  if bit (s.reg .SWU_STATUS) 0 then s.setRegF .SWU_STATUS 1 1 1 else f s

/-- A command: refused with err 1, or accepted. An unload holds customer jobs at once (R396). -/
def loaderCommand (r : Req) (op wait : Nat) (s : State) : State :=
  if !loaderTakes s r then s.setRegF .SWU_STATUS 19 16 1
  else
    let s := (s.setRegF .SWU_STATUS 0 0 1).setRegF .SWU_STATUS 39 32 (reqStop r)
    { s with sweep := { s.sweep with loader := { s.sweep.loader with op, checked := none, hold := op == 2, waitMs := max wait 1 } } }

/-- SWU_LOAD (R391, R392, R395). -/
def execSwuLoad (r : Req) (waitMs : BitVec 10) (s : State) : Host.Outcome State Fault Refusal :=
  answer s (loaderWrite (loaderCommand r 1 waitMs.toNat) s)

/-- SWU_UNLOAD (R391, R392, R396). -/
def execSwuUnload (r : Req) (waitMs : BitVec 10) (s : State) : Host.Outcome State Fault Refusal :=
  answer s (loaderWrite (loaderCommand r 2 waitMs.toNat) s)

/-! ## The checks (Table 09-10) -/

/-- Bytes of a module from physical memory, untranslated under key ID 0; none when a page lies outside every interleave region or
is not in POT state 0, or a read is poisoned or answered with a non-zero status (R393). -/
def openBytes (s : State) (stop pa len : Nat) : Option (List Byte) :=
  let pages := (List.range ((pa + len + 4095) / 4096 - pa / 4096)).map fun i => (pa / 4096 + i) * 4096
  let ok := pages.all fun p => pageOpen s p == some true && (match decodeAddr s stop p with
    | .mem _ ch _ => !(s.mc ch).dead
    | _ => false)
  let r := peekBytes s pa len 0
  if ok && !r.2 then some r.1 else none

/-- A field list of must-be-zero bits. -/
def bitsZero (w : W64) (fs : List (Nat × Nat)) : Bool := fs.all fun f => fld w f.1 f.2 == 0

/-- Check 6 of one entry. -/
def entryOk (nwords : Nat) (e : W64) : Bool :=
  if !bit e 63 then e == 0
  else decide (fld e 62 61 < 2) && decide (fld e 55 48 ≤ 24) && decide (1 ≤ fld e 47 45) && decide (fld e 47 45 ≤ 4) &&
    decide (fld e 11 0 < nwords) && (fld e 35 24 == 0xFFF || decide (fld e 35 24 < nwords)) &&
    !(bit e 44 && fld e 62 61 == 0) && bitsZero e [(60, 56), (39, 36), (23, 12)]

/-- What Table 09-4 gives a listed op: its least cl and the bits its fields use. -/
def ucOp (op : Nat) : Option (Nat × Nat) :=
  let S := 0xFFF000
  let xyz := 0xFF8000
  match op with
  | 0x00 => some (0, 0)
  | 0x01 | 0x02 | 0x03 | 0x04 | 0x05 | 0x06 | 0x07 | 0x08 => some (0, S)
  | 0x09 => some (0, 0xFFFFFF)
  | 0x0A => some (0, 0xF3FFFF)
  | 0x0B => some (0, 0x0FF000)
  | 0x0C => some (0, 0x0FFFFF)
  | 0x0D => some (0, 0xF0FFFF)
  | 0x0E => some (1, S)
  | 0x10 | 0x11 | 0x12 | 0x13 | 0x14 => some (0, xyz)
  | 0x16 | 0x17 => some (0, 0xFC003F)
  | 0x18 => some (2, xyz)
  | 0x19 => some (1, 0x1FFFC0)
  | 0x1A => some (0, 0x03FE03)
  | 0x1B => some (0, 0xFF8E00)
  | 0x1C => some (0, 0xE0000F)
  | 0x1D => some (0, 0x1F800F)
  | 0x1E => some (1, 0xFC0000)
  | 0x1F => some (3, 0xFC0E0F)
  | 0x20 => some (0, 0xE00003)
  | 0x21 => some (0, 0x000E00)
  | 0x22 => some (0, 0x1C0E00)
  | 0x24 => some (1, 0xFFFFFC)
  | 0x25 => some (0, 0xFFFFFC)
  | 0x30 => some (0, 0xFC3FFF)
  | 0x31 => some (0, 0xFC3FFF)
  | 0x32 | 0x34 => some (0, 0)
  | 0x33 | 0x35 => some (0, 0xFF)
  | _ => none

/-- Ops that no delay slot holds, and those that have one (R384, Table 09-4). -/
def ucControl (op : Nat) : Bool := [0x30, 0x31, 0x32, 0x33, 0x34, 0x35].contains op
def ucSlotted (op : Nat) : Bool := [0x30, 0x31, 0x32].contains op

/-- The least minor ABI of a service (Table 09-9). -/
def svcAbi (n : Nat) : Option Nat := [0, 0, 0, 0, 1, 2, 3][n]?

/-- Check 7 of one word; `before` is the word ahead of it in the module. -/
def wordOk (minor nwords : Nat) (before : Option W32) (w : W32) : Bool :=
  let v := w.toNat
  let op := v / 2 ^ 26
  let low := v % 2 ^ 24
  let inSlot := before.any fun b => ucSlotted (b.toNat / 2 ^ 26)
  match ucOp op with
  | none => false
  | some (cl, used) =>
    decide (cl ≤ v / 2 ^ 24 % 4) && low &&& used == low && !(inSlot && ucControl op) &&
      (match op with
       | 0x30 => decide (0x3000 ≤ low % 2 ^ 14) && decide (low % 2 ^ 14 < 0x3000 + nwords)
       | 0x31 => decide (0x3000 ≤ low % 2 ^ 14) && decide (low % 2 ^ 14 < 0x3000 + nwords) && low / 2 ^ 14 == 0x2F0
       | 0x33 => (match svcAbi (low % 256) with | some m => decide (m ≤ minor) | none => false)
       | 0x35 => decide (0x28 ≤ low % 256) && decide (low % 256 ≤ 0x2F)
       | 0x0D => decide (low % 2 ^ 16 ≤ 7)
       | _ => true)

/-- Checks 3 to 7 of a module image (R389, R394): the module, or the error code with the word index of err 7. -/
def checkModule (bs : List Byte) : Except (Nat × Nat) SwModule :=
  let w0 := w64 (bytesNat bs 0 8)
  let n := fld w0 15 0
  let entries := (List.range 128).map fun k => w64 (bytesNat bs (0x40 + 8 * k) 8)
  let words : List W32 := (List.range n).map fun i => BitVec.ofNat 32 (bytesNat bs (0x440 + 4 * i) 4)
  let crc := bytesNat bs 8 4
  if fld w0 63 48 ≠ 0x5543 ∨ n = 0 ∨ 4096 < n ∨ fld w0 39 16 ≠ 0 ∨ (List.range 48).any (fun i => bs.getD (0x10 + i) 0 != 0) then
    .error (3, 0)
  else if fld w0 47 44 ≠ 2 ∨ 3 < fld w0 43 40 then .error (4, 0)
  else if crc32c (bs.drop 0x40) ≠ crc then .error (5, 0)
  else if entries.any fun e => !entryOk n e then .error (6, 0)
  else match (List.range n).find? fun i =>
      !wordOk (fld w0 43 40) n (if i = 0 then none else words[i - 1]?) (words.getD i 0) with
    | some i => .error (7, i)
    | none => .ok { abi := fld w0 47 40, id := bytesNat bs 0xC 4, crc, entries, words }

/-- A module read from memory and checked (R393, R394). -/
def readModule (s : State) (stop pa : Nat) : Except (Nat × Nat) SwModule :=
  match openBytes s stop pa 0x440 with
  | none => .error (2, 0)
  | some hd =>
    let n := fld (w64 (bytesNat hd 0 8)) 15 0
    match openBytes s stop pa (0x440 + 4 * (if 4096 < n then 0 else n)) with
    | none => .error (2, 0)
    | some bs => checkModule bs

/-! ## The end of a command -/

/-- A command ends with a result. -/
def loaderEnds (err word : Nat) (s : State) : State :=
  let s := ((s.setRegF .SWU_STATUS 19 16 err).setRegF .SWU_STATUS 31 20 word).setRegF .SWU_STATUS 0 0 0
  { s with sweep := { s.sweep with loader := { s.sweep.loader with op := 0, checked := none, hold := false } } }

/-- SWU_MODULE_CHECKED (R393 to R395): the hold begins, or the load ends with an error. -/
def execSwuModuleChecked (s : State) : Host.Outcome State Fault Refusal :=
  answer s (let l := s.sweep.loader
    if l.op ≠ 1 ∨ l.checked.isSome then s
    else match readModule s 0x7A (s.regF .SWU_SRC 51 6 * 64) with
      | .error (err, word) => loaderEnds err word s
      | .ok m => { s with sweep := { s.sweep with loader := { l with checked := some m, hold := true } } })

/-- Whether a customer job is in progress on an engine (R395). -/
def customerRuns (s : State) : Bool :=
  (List.range 16).any fun e => (s.engine e).shares.any fun h => h.started && (shareJob s h).any SwJob.customer

/-- A module is written into every in-service engine (R386, R395), or taken out of them (R396). -/
def installModule (m : Option SwModule) (s : State) : State :=
  let valid := if m.isSome then fld (s.reg .AVAIL_MEM) 31 16 else 0
  let get := fun (f : SwModule → Nat) => match m with | some m => f m | none => 0
  let s := (s.setRegF .SWU_STATUS 63 48 valid).setRegF .SWU_STATUS 47 40 (get SwModule.abi)
  let s := s.setReg .SWU_ID (w64 (get SwModule.id * 2 ^ 32 + get SwModule.crc))
  { s with sweep := { s.sweep with loader := { s.sweep.loader with loaded := m } } }

/-- SWU_HOLD_REACHED (R395, R396). -/
def execSwuHoldReached (s : State) : Host.Outcome State Fault Refusal :=
  answer s (let l := s.sweep.loader
    if !l.hold || customerRuns s then s else loaderEnds 0 0 (installModule (if l.op = 1 then l.checked else none) s))

/-- SWU_HOLD_TIMEOUT (R394, Table 09-12): the hold was not reached within wait_ms. -/
def execSwuHoldTimeout (s : State) : Host.Outcome State Fault Refusal :=
  answer s (if s.sweep.loader.hold && customerRuns s then loaderEnds 8 0 s else s)

end Sys2Proof.Machine
end

