-- ==== Sys2Proof/Machine/Keys.lean ====
section
/-! DEFINITION. Key slots: load, erase and query by CX0, and the key table it keeps (07.9, 11.6). -/

namespace Sys2Proof.Machine

/-- Only CX0 writes the key registers; another's write is ignored and logged in the SV0 fabric bank (R314). A command waits while
KEY_STATUS.busy is 1 (Table 07-13). -/
def keyWrite (r : Req) (f : State → State) (s : State) : State :=
  if r ≠ .cx 0 then refuse (.fabric 0x02) 0x02 r s
  else if bit (s.reg .KEY_STATUS) 0 then s
  else f s

/-- A key command begins: busy reads 1 and err gives its outcome. -/
def keyBusy (err : Nat) (s : State) : State := (s.setRegF .KEY_STATUS 3 1 err).setRegF .KEY_STATUS 0 0 1

/-- The key of KEY_DATA: key 1 in bytes 0 to 31, key 2 in bytes 32 to 63 (Table 07-12). -/
def keyData (s : State) : BitVec 512 :=
  BitVec.ofNat 512 ((List.range 8).foldl (fun a k => a + (s.reg .KEY_DATA 0 k).toNat * 2 ^ (64 * k)) 0)

/-- A slot of every memory stop takes a value (R314). -/
def setKey (slot : Nat) (v : KeySlot) (s : State) : State :=
  { s with keys := (List.range 16).foldl (fun m ch => NMap.put m (ch * 4096 + slot) v) s.keys }

/-- Every slot of a memory stop reads as erased (R315). -/
def eraseStop (ch : Nat) (s : State) : State :=
  ({ s with keys := s.keys.filter fun e => e.1 / 4096 != ch }).modMc ch fun m => { m with keysErased := true }

/-- Every slot of every memory stop reads as erased, and KEY_EPOCH.erased is set (R315, R486). -/
def eraseAllKeys (s : State) : State := ((List.range 16).foldl (fun s ch => eraseStop ch s) s).setRegF .KEY_EPOCH 8 8 1

/-- The code of a slot's state (Table 07-14). -/
def slotCode (s : State) (slot : Nat) : Nat :=
  match keySlot s 0 slot with
  | .empty => 0
  | .loaded _ => 1
  | .erased => 2

/-- KEY_QUERY (R314). -/
def execKeyQuery (r : Req) (slot : Nat) (s : State) : Host.Outcome State Fault Refusal :=
  answer s (keyWrite r (fun s => keyBusy 0 (s.setRegF .KEY_STATUS 9 8 (slotCode s (slot % 4096)))) s)

/-! ## The key table (R482) -/

/-- The address of entry `slot` of the key table. -/
def tableAddr (s : State) (slot : Nat) : Nat := s.regF .FIN_REGION 51 20 * 2 ^ 20 + 0x80000 + slot * 128

/-- CX0 writes an entry of the key table, while FIN_REGION.valid is 1. -/
def tablePut (slot : Nat) (bytes : List Byte) (s : State) : State :=
  if bit (s.reg .FIN_REGION) 0 then poke (tableAddr s slot) 0 (bytes ++ List.replicate (128 - bytes.length) 0) s else s

/-- The bytes of a 512-bit key pair, key 1 first. -/
def keyBytes (k : BitVec 512) : List Byte := (List.range 64).map (lineByte k)

/-- The bytes of the wrapping key of the current epoch (R482, R484; log entry 3). -/
def wrapBytes (s : State) : List Byte :=
  (List.range 32).map fun i => (Config.wrapKey (s.regF .KEY_EPOCH 6 0)).extractLsb' (8 * i) 8

/-- An entry: the wrap of the pair under the wrapping key of the current epoch, the key ID and valid. -/
def tableEntry (s : State) (slot : Nat) (k : BitVec 512) : List Byte :=
  kwWrap (wrapBytes s) (keyBytes k) ++ leBytes 8 (2 ^ 63 + slot)

/-- Every entry is zeroed, after which CX0 clears KEY_EPOCH.erased (R482, R486). -/
def zeroTable (s : State) : State :=
  (poke (tableAddr s 0) 0 (List.replicate 0x80000 0) s).setRegF .KEY_EPOCH 8 8 0

/-! ## Descriptors and their keys (R447, R494, R699) -/

/-- The effect of PV_REQ op 2 on a descriptor (R447): running to destroying, or to destroyed when no core runs it (R494); validated
to destroyed. None for another state. -/
def stopDescriptor (desc : Nat) (s : State) : Option State :=
  match (peek s (descStateAddr desc) 1 0).1 with
  | 1 => some (pokeNat (descStateAddr desc) 0 1 4 s)
  | 2 =>
    let runs := (List.range 144).any fun n => (s.core n).running.any fun r => r.desc == desc
    some (pokeNat (descStateAddr desc) 0 1 (if runs then 3 else 4) s)
  | _ => none

/-- Before another key is loaded into a slot, every descriptor that names it is stopped (R699). -/
def stopOtherKeys (slot : Nat) (k : BitVec 512) (s : State) : State :=
  s.sec.descs.foldl (fun s d => if d.2.1 = slot ∧ d.2.2 ≠ k then (stopDescriptor d.1 s).getD s else s) s

/-! ## Commands (R314 to R318) -/

/-- A load: refused for slot 0, for key 1 equal to key 2, and once every epoch is used (Table 07-14, R318, R482, R485, R699). -/
def loadKey (slot : Nat) (s : State) : State :=
  let k := keyData s
  if slot = 0 then keyBusy 1 s
  else if k.setWidth 256 = (k >>> 256).setWidth 256 then keyBusy 2 s
  else if bit (s.reg .KEY_EPOCH) 9 then keyBusy 3 s
  else keyBusy 0 (setKey slot (.loaded k) (tablePut slot (tableEntry s slot k) (stopOtherKeys slot k s)))

/-- KEY_LOAD (R314). -/
def execKeyLoad (r : Req) (slot : Nat) (s : State) : Host.Outcome State Fault Refusal :=
  answer s (keyWrite r (loadKey (slot % 4096)) s)

/-- KEY_ERASE (R314, R482). -/
def execKeyErase (r : Req) (slot : Nat) (s : State) : Host.Outcome State Fault Refusal :=
  answer s (keyWrite r (fun s => if slot % 4096 = 0 then keyBusy 1 s
    else keyBusy 0 (tablePut (slot % 4096) [] (setKey (slot % 4096) .erased s))) s)

/-- KEY_ERASE_ALL (R315, R486). -/
def execKeyEraseAll (r : Req) (s : State) : Host.Outcome State Fault Refusal :=
  answer s (keyWrite r (fun s => keyBusy 0 (eraseAllKeys s)) s)

/-- KEY_COMMAND_COMPLETE (R317). -/
def execKeyCommandComplete (s : State) : Host.Outcome State Fault Refusal :=
  answer s (if bit (s.reg .KEY_STATUS) 0 then
      (List.range 8).foldl (fun s k => s.setReg .KEY_DATA 0 0 k) (s.setRegF .KEY_STATUS 0 0 0)
    else s)

/-- The dropped and poisoned counts of R312 are cleared. -/
def clearKeyCounts (s : State) : State := (s.setRegF .KEY_STATUS 63 48 0).setRegF .KEY_STATUS 47 32 0

/-- KEY_STATUS_CLEAR (R312, Table 07-14). -/
def execKeyStatusClear (r : Req) (s : State) : Host.Outcome State Fault Refusal :=
  answer s (if r ≠ .cx 0 then refuse (.fabric 0x02) 0x02 r s else clearKeyCounts s)

end Sys2Proof.Machine
end

