-- ==== Sys2Proof/Machine/Reset.lean ====
section
/-! DEFINITION. Cold, Warm and Catch reset, security alarms, and the release of main cores (00.5, 12.7, 14.7, 15.3). -/

namespace Sys2Proof.Machine

/-! ## What a reset leaves (R21, R527) -/

/-- The reset types that reach the whole part (Table 12-13). -/
inductive ResetKind where
  | cold | warm | ctch
  deriving DecidableEq, Repr

/-- A field's column of a reset type: none keeps the content (R21). -/
def Field.after (k : ResetKind) (f : Field) : Option Nat :=
  match k with
  | .cold => some f.cold
  | .warm => f.warm
  | .ctch => f.ctch

/-- The bits of a register that fuses or a strap hold through every reset: the key epoch and its exhaustion (Table 11-10), bypassed
routers (Table 06-9), signing keys and locked groups (Table 15-8). -/
def fuseBits : RegName → W64
  | .KEY_EPOCH => 0x27F#64
  | .FAB_BYPASS => 0x3FFFF#64
  | .FUSE_LOCK => 0xFF0000000000FF#64
  | .STRAP_STATUS => 0x1F#64
  | _ => 0

/-- The power domain whose loss a register's content does not survive (R527): none for the always-on domain. -/
def domainOf (r : RegName) : Option Nat :=
  match r.place.block, r with
  | .sv1, .DB_STATUS => some 0
  | .sv1, _ => none
  | _, .STRAP_STATUS => none
  | .stop, _ | .tile, _ | .unc, _ => some 1
  | .mc, _ => some 2
  | .io, _ | .io0, _ | .ep, _ => some 6
  | _, _ => some 0

/-- The content of a register after a reset. `gone` says that its domain lost power, where a kept field reads 0 (R527). -/
def resetWord (k : ResetKind) (gone : Bool) (r : RegName) (u i : Nat) (old : W64) : W64 :=
  let w := r.fields.foldl (fun w f =>
    match f.after k with
    | none => if gone then setFld w f.hi f.lo 0 else w
    | some x => setFld w f.hi f.lo (if x = f.cold then fld (coldAt r u i) f.hi f.lo else x)) old
  (w &&& ~~~fuseBits r) ||| (old &&& fuseBits r)

/-- The registers after a reset. -/
def resetRegs (k : ResetKind) (lost : List Nat) (m : NMap W64) : NMap W64 :=
  m.filterMap fun e => match locate e.1 with
    | none => none
    | some (r, u, i) =>
      let w := resetWord k (decide (k = .ctch) && (domainOf r).any lost.contains) r u i e.2
      if w = coldAt r u i then none else some (e.1, w)

/-- Whether a cell lies in a channel's DRAM, not in memory behind an aperture. -/
def channelCell (a : Nat) : Bool := decide (a < 2 ^ 56)

/-- The cells of DRAM that has lost its content: each holds a free value (R527, log entry 4). -/
def forgetCells (n : Nat) (m : List Host.Cell) : List Host.Cell :=
  m.foldl (fun d c => if channelCell c.1 then writeCell d c.1 ((Config.free64 (n + c.1)).setWidth 8) else d) m

/-- TCM content that a reset leaves undefined (R410). -/
def forgetTcm (n : Nat) (m : NMap Byte) : NMap Byte :=
  m.foldl (fun d c => NMap.set 0 d c.1 ((Config.free64 (n + 2 ^ 56 + c.1)).setWidth 8)) m

/-- The tiles that are in service (R187). -/
def tilesIn (s : State) : BitVec 72 :=
  (List.range 72).foldl (fun v t => if bit (s.reg .STOP_ID (tileStop t)) 32 then v ||| (1#72 <<< t) else v) 0

/-- A resource leaves service: its availability bit, and for a stop STOP_ID.in_service (R47, R48). -/
def takeOut (x : Resource) (s : State) : State :=
  match x with
  | .tile t =>
    if 72 ≤ t then s
    else (if t < 64 then s.setRegF .AVAIL_TILE_LO t t 0 else s.setRegF .AVAIL_TILE_HI (t - 64) (t - 64) 0).setRegF
      .STOP_ID 32 32 0 (tileStop t)
  | .channel n => if 16 ≤ n then s else (s.setRegF .AVAIL_MEM n n 0).setRegF .AVAIL_MEM (16 + n) (16 + n) 0
  | .sweep n => if 16 ≤ n then s else s.setRegF .AVAIL_MEM (16 + n) (16 + n) 0
  | .io n => if 12 ≤ n then s else (s.setRegF .AVAIL_IO n n 0).setRegF .STOP_ID 32 32 0 (ioStop n)

/-- The state after a reset of a type: registers by their columns, every unit at rest, every cache and key slot empty, DRAM lost
but for Catch, the pairs but CX0 held and every main core held (R221, R318, R409, R410, R527). -/
def State.afterReset (s : State) (k : ResetKind) : State :=
  let keep := decide (k = .ctch)
  let r := State.reset
  let t : State := { r with
    pending := s.pending
    crs := if k = .cold then s.crs.filterMap fun e => match locate e.1 with
        | some (.STRAP_STATUS, _, _) | none => none
        | some (r, u, i) =>
          (let v := (coldAt r u i &&& ~~~(fuseBits r)) ||| (e.2 &&& fuseBits r)
           if v = coldAt r u i then none else some (e.1, v))
      else resetRegs k s.power.lost s.crs
    tcm := forgetTcm s.free s.tcm
    dram := if keep then s.dram else forgetCells s.free s.dram
    lmeta := if keep then s.lmeta else s.lmeta.filter fun e => !channelCell (e.1 * 64)
    mcs := if keep then s.mcs.filterMap fun e =>
        (let m := { MemStop.cold with spared := e.2.spared, exhausted := e.2.exhausted, repaired := e.2.repaired }
         if m = MemStop.cold then none else some (e.1, m))
      else []
    io := { r.io with stops := s.io.stops.filterMap fun e =>
      (let x := { IoStop.cold with perstIn := e.2.perstIn }; if x = IoStop.cold then none else some (e.1, x)) }
    fin := if k = .cold then { r.fin with holdSince := s.fin.holdSince, seq := s.fin.seq }
      else { s.fin with taken := [], released := false, catching := keep, cx3Open := false }
    power := { r.power with temps := s.power.temps, refclk := s.power.refclk }
    boot := { s.boot with page := [], digests := [], entry := 0, colds := s.boot.colds + (if k = .cold then 1 else 0) }
    ras := if k = .cold then { r.ras with tilesOut := s.ras.tilesOut } else { r.ras with tilesOut := s.ras.tilesOut }
    pins := { s.pins with switching := [], alarmN := if k = .cold then true else s.pins.alarmN
                          jtag := if k = .cold then .bypass else s.pins.jtag
                          coreRan := decide (k ≠ .cold) && s.pins.coreRan }
    sec := { r.sec with descs := if keep then s.sec.descs else [] }
    timeUs := if k = .cold then 0 else s.timeUs
    free := s.free + 2 ^ 57 }
  let t := if k = .cold then t else s.ras.tilesOut.foldl (fun t n => takeOut (.tile n) t) t
  let t := if k = .warm then t else defaultRoutes t
  let t := ((List.range 72).filter fun n => bypassed t (tileStop n)).foldl (fun t n => takeOut (.tile n) t) t
  t.modHomes fun h => { h with inService := tilesIn t }

/-- The level of HOLDUP_OK, which FIN_STATUS shows after any reset. -/
def showHoldup (s : State) : State := s.setRegF .FIN_STATUS 49 49 s.fin.holdSince.isSome.toNat

/-- A Warm reset (R527, R529). -/
def warmReset (s : State) : State := showHoldup (s.afterReset .warm)

/-- A Cold reset with every supply up (R527, R529): straps keep the sampled values, which the always-on reset samples again
(R678). -/
def coldReset (straps : W64) (s : State) : State := showHoldup ((s.afterReset .cold).setReg .STRAP_STATUS straps)

/-! ## Alarms (R607 to R610) -/

/-- The key epoch advances; the flag stands for the two fuse cells until they are programmed (R485, R610). -/
def advanceEpoch (s : State) : State :=
  let e := s.regF .KEY_EPOCH 6 0
  let s := if e = 127 then s.setRegF .KEY_EPOCH 9 9 1 else s.setRegF .KEY_EPOCH 6 0 (e + 1)
  { s with sec := { s.sec with epochFlag := true } }

/-- A reserved-lane message leaves SV0 or SV1 for a list of stops (R234, R248). -/
def sendLane (kind arg : Nat) (stops : List Nat) (s : State) : State :=
  s.modFab fun f => { f with lane := f.lane ++ stops.map fun p => (p, kind, arg) }

/-- The always-on domain records a wake: its code, detail and the sources present (R523). -/
def recordWake (code detail mask : Nat) (s : State) : State :=
  let s := s.bumpReg .PWR_WAKE 31 16
  ((s.setRegF .PWR_WAKE 3 0 code).setRegF .PWR_WAKE 55 48 detail).setRegF .PWR_WAKE 39 32 mask

/-- A message that a feature of the Socket Link forwards to the other part leaves on the first link of the group that is up: bit 2
Finish, bit 3 freeze and snapshot (Table 13-22). -/
def forwardLink (bit_ code : Nat) (s : State) : State :=
  match (List.range 12).find? fun n => fld (s.ioAt n).cfg 3 0 == 3 && bit (s.reg .IO_LINK n 0) 63 && bit (s.reg .IO_SL n) bit_ with
  | none => s
  | some n => s.modIo n fun x => { x with egress := x.egress ++ [⟨0, .message, 0, 0, w64 code, 0, [], .sc, false⟩] }

/-- Whether Finish is in progress (FIN_STATUS.inprog). -/
def finishing (s : State) : Bool := bit (s.reg .FIN_STATUS) 62

/-- The lowest source in a set. -/
def lowestSource (m : Nat) : Nat := ((List.range 8).find? fun i => m.testBit i).getD 0

/-- The sources of a set whose action field has bit `b`. -/
def withAction (s : State) (m b : Nat) : List Nat :=
  (List.range 8).filter fun i => m.testBit i && bit (s.reg .SEC_ALM_CFG 0 i) b

/-- One event of alarm sources (R608, R609): logged, ALARM_N low, then erase, advance, irq and reset. A reset waits for the erase,
which then completes with it; Finish drops it. -/
def fireAlarm (m : Nat) (s : State) : State :=
  let m := m % 256
  if m = 0 then s
  else
    let n := s.regF .SEC_ALM_LOG 55 48
    let log := if n = 0 then w64 (lowestSource m * 2 ^ 56 + 1 * 2 ^ 48 + s.timeUs % 2 ^ 48)
      else setFld (s.reg .SEC_ALM_LOG) 55 48 (satAdd n 1 0xFF)
    let t := (s.setReg .SEC_ALM_LOG log).setRegF .SEC_ALM_STATUS 7 0 (s.regF .SEC_ALM_STATUS 7 0 ||| m)
    let t := { t with pins := { t.pins with alarmN := false } }
    let reset := withAction s m 3 != [] && !finishing s
    let t := match withAction s m 1 with
      | [] => t
      | e :: _ =>
        if reset then eraseAllKeys t
        else sendLane 1 e ((List.range 16).map mcStop) (t.setRegF .KEY_EPOCH 8 8 1)
    let t := if withAction s m 2 = [] then t else advanceEpoch t
    let t := if withAction s m 0 = [] then t else raiseCx 0 0 t
    if reset then warmReset t else t

/-! ## Release of main cores (R93, R188, R492, R632) -/

/-- A main core starts at an address in the state of R93, with g1 and g2. -/
def releaseCore (pc : W64) (g1 g2 : Nat) (n : Nat) (s : State) : State :=
  s.setCore n ((({ Core.cold with run := .running, pc := pc }).setG 1 (w64 g1)).setG 2 (w64 g2))

/-- The cores of tiles in service. -/
def liveCores (s : State) : List Nat := (List.range 144).filter (coreInService s)

/-- Cores start: CCH_MODE locks with the first (R188), and EXTEST, CLAMP and HIGHZ act no more (R686). -/
def releaseCores (pc : W64) (g1 g2 : Nat) (cores : List Nat) (s : State) : State :=
  let s := cores.foldl (fun s n => releaseCore pc g1 g2 n s) s
  { (s.setRegF .CCH_MODE 1 1 1) with
    fin := { s.fin with released := true }
    pins := { s.pins with coreRan := true, jtag := match s.pins.jtag with | .extest | .clamp | .highz => .bypass | j => j } }

end Sys2Proof.Machine
end

