-- ==== Sys2Proof/Machine/Coxswain.lean ====
section
/-! DEFINITION. Pairs under control: reset and hold, interrupt entry, spills, refills, the reach unit, lockstep faults, the loader of
CX3 and its mailbox (chapter 10). -/

namespace Sys2Proof.Machine

/-! ## Reset and hold (R409 to R412) -/

/-- Who may write CXS_CTL of a pair (R411). -/
def cxsWriter (s : State) (r : Req) (k : Nat) : Bool :=
  match r with
  | .cx 0 => decide (k ≠ 0)
  | .cx 2 => decide (k ≠ 2)
  | .cx 1 => decide (k = 3) && finishing s
  | _ => false

/-- Whether a unit belongs to pair `k`. -/
def ofPair (k : Nat) : Unit → Bool
  | .pair j | .pairCache j _ | .slot j _ => j == k
  | _ => false

/-- The pair's service island is reset: its caches and requests go, responses to them are discarded and counted, the TCM stays; the
port asks for resynchronisation (R257, R412). -/
def resetPair (k : Nat) (s : State) : State :=
  let stop := svStop k
  let s := portReset stop s
  let lost := s.fab.net.filter fun p => p.dst == stop && ofPair k p.to_
  let s := lost.foldl (fun s _ => s.bumpReg .NI_PORT 31 16 stop) s
  let s := s.modFab fun f => { f with
    net := f.net.filter fun p => !(p.dst == stop && ofPair k p.to_)
    outs := f.outs.filter fun o => !(o.stop == stop && ofPair k o.who) }
  let s := (cacheLines s (.cxI k)).foldl (fun s l => dropLine (.cxI k) l.line s) s
  let s := (cacheLines s (.cxD k)).foldl (fun s l => dropLine (.cxD k) l.line s) s
  let s := s.setPair k (Pair.start k)
  portRelease stop (s.setRegF .CXS_CTL 7 6 0 k)

/-- A write of CXS_CTL: reset, and hold, which keeps the pair in reset or releases it to start. -/
def writeCxs (r : Req) (k : Nat) (v : W64) (s : State) : State :=
  if !cxsWriter s r k then refuse (.fabric (svStop k)) (svStop k) r s
  else
    let was := bit (s.reg .CXS_CTL k) 0
    let s := s.setRegF .CXS_CTL 0 0 (bit v 0).toNat k
    if bit v 1 || (bit v 0 && !was) then resetPair k s
    else if was && !bit v 0 then s.setPair k (Pair.start k)
    else s

/-- CXS_CTL_RESET (R411, R412): hold keeps its value. -/
def execCxsCtlReset (r : Req) (k : Nat) (s : State) : Host.Outcome State Fault Refusal :=
  answer s (if k < 4 then writeCxs r k (w64 (2 + s.regF .CXS_CTL 0 0 k)) s else s)

/-- CXS_CTL_HOLD (R409 to R411). -/
def execCxsCtlHold (r : Req) (k : Nat) (hold : Bool) (s : State) : Host.Outcome State Fault Refusal :=
  answer s (if k < 4 then writeCxs r k (w64 hold.toNat) s else s)

/-! ## Interrupts and windows (R419 to R427) -/

/-- CX_INTERRUPT_ENTRY (R425, R426): the chosen input, the next window at once, the sequence of Table 10-9. -/
def execCxInterruptEntry (k : Nat) (s : State) : Host.Outcome State Fault Refusal :=
  answer s (let p := s.pair k
    match p.chosen with
    | none => s
    | some i =>
      if !pairAlive s k || !(p.cx 0).getLsbD 0 || p.cwp == 0 then s
      else
        let p := { p with frames := p.frames ++ [p.cwp], pend := if i = 62 then p.pend else setBit p.pend i false }
        enterWindow k (nextWin p.cwp) (BitVec.ofNat 32 (2 ^ 31 + i)) 0 (some (p.inputLevel i)) true i (s.setPair k p))

/-- SPILL (R419, R420, R422): the oldest frame is written out while fewer than 4 windows are free; outside the area the spill-fault
handler is entered instead. -/
def execSpill (k : Nat) (s : State) : Host.Outcome State Fault Refusal :=
  answer s (let p := s.pair k
    if !pairAlive s k || p.cwp == 0 || decide (4 ≤ p.freeWins) || p.frames.isEmpty then s
    else match spillFrame k s with
      | some s => s
      | none => spillFault k 0x19 s)

/-- CX_DIVIDE_COMPLETE (R418): the result goes to the destination in the window that was current at issue. -/
def execCxDivideComplete (k : Nat) (s : State) : Host.Outcome State Fault Refusal :=
  answer s (if !pairAlive s k then s
    else s.modPair k fun p => match p.div with
      | none => p
      | some d => { { p with cwp := d.win }.setR d.rd d.result with cwp := p.cwp, div := none })

/-! ## Refills (R437, R589) -/

/-- The line of a refill is in place: the load that waits for it goes on; a line answered with a non-zero status is not kept, and
the load or fetch that waits for it meets poison. -/
def refillDone (k : Nat) (f : PairFill) (s : State) : State :=
  let s := if f.bad then s
    else (fillLine (if f.icache then .cxI k else .cxD k) ⟨f.line, 0, .S, f.data, f.poison, 1, false⟩ s).2
  if !pairAlive s k then s
  else if f.icache then
    (if f.bad && (s.pair k).wait.isNone && cxFetch s k == .miss f.line then cxPoison k (s.pair k).pc.toNat s else s)
  else match (s.pair k).wait with
    | none => s
    | some w => cxLoad k w.rd w.addr w.size w.sext (if f.bad then w.got ++ [(f.line, f.data, true)] else w.got) s

/-- CX_CACHE_REFILL (R437). -/
def execCxCacheRefill (k : Nat) (icache : Bool) (s : State) : Host.Outcome State Fault Refusal :=
  answer s (match (s.pair k).fills.find? fun f => f.icache == icache with
    | none => s
    | some f => if k < 4 then refillDone k f (s.modPair k fun p => { p with fills := p.fills.erase f }) else s)

/-! ## Reach unit (R439, R440) -/

/-- An MTS to CX_RCH_CMD of a slot. -/
def reachMts (k slot : Nat) (v : W32) (s : State) : State :=
  onPair k [] [] (fun s =>
    if (s.pair k).worldT && decide (slot < 2) then cxTrap k 2 0 s
    else (reachCmd k slot v s).modPair k Pair.advance) s

/-- REACH_READ (R439, R441). -/
def execReachRead (k slot : Nat) (v : W32) (s : State) : Host.Outcome State Fault Refusal :=
  answer s (if slot < 4 then reachMts k slot ((v &&& ~~~3#32) ||| 1#32) s else s)

/-- REACH_WRITE (R439, R441). -/
def execReachWrite (k slot : Nat) (v : W32) (s : State) : Host.Outcome State Fault Refusal :=
  answer s (if slot < 4 then reachMts k slot ((v &&& ~~~3#32) ||| 2#32) s else s)

/-- REACH_COMPLETE (R440): the slot's response on its way is taken; the operands stand for one only when the fabric keeps no request
of the slot. -/
def execReachComplete (k slot : Nat) (status : BitVec 3) (data : W64) (s : State) : Host.Outcome State Fault Refusal :=
  answer s (if decide (4 ≤ k) || decide (4 ≤ slot) || !((s.pair k).cx (0x23 + 4 * slot)).getLsbD 31 then s
    else match s.fab.outs.find? fun o => o.stop == svStop k && o.who == .slot k slot with
      | none => reachEnd k slot status.toNat (some data) s
      | some o =>
        let mine := fun (p : Packet) => p.dst == o.stop && p.tid == o.tid && p.to_ == .slot k slot &&
          (opClass p.op == 2 || opClass p.op == 3 || opClass p.op == 6)
        match s.fab.net.find? mine with
        | none => s
        | some p => respond p.op [o.op] o.stop o.tid (slotAnswer k slot) s)

/-! ## Lockstep and halts (R443, R444) -/

/-- LOCKSTEP_MISMATCH (R443): the pair freezes and is reported; a mismatch of CX0 fires alarm source 5. -/
def execLockstepMismatch (k : Nat) (s : State) : Host.Outcome State Fault Refusal :=
  answer s (if !pairAlive s k then s
    else
      let s := raiseCx (reportTo k) 3 (s.setRegF .CXS_CTL 7 7 1 k)
      if k = 0 then fireAlarm 0x20 s else s)

/-- An event of a kind at a place enters CX2's counters (Table 14-10): how many lie within the window, this one included. -/
def countEvent (kind place windowUs : Nat) (s : State) : Nat × State :=
  let ev := (s.ras.events.filter fun e => !(e.1 == kind) || decide (s.timeUs < e.2.2 + windowUs)) ++ [(kind, place, s.timeUs)]
  ((ev.filter fun e => e.1 == kind && e.2.1 == place).length, { s with ras := { s.ras with events := ev } })

/-- An hour in µs. -/
def hourUs : Nat := 3600 * 1000000

/-- PAIR_FAULT_REPORT (R444): the receiving pair logs the fault in its own bank and resets the faulty pair, or holds it when its count
within an hour comes to pair_halt. -/
def execPairFaultReport (k : Nat) (halt : Bool) (s : State) : Host.Outcome State Fault Refusal :=
  answer s (let by_ := reportTo k
    if decide (4 ≤ k) || !bit (s.reg .CXS_CTL k) (if halt then 6 else 7) || !pairAlive s by_ then s
    else
      let s := record (.sv by_) (mkRec .uncorrected (svStop k) 0x51 0x09 halt.toNat) s
      let c := countEvent 0 k hourUs s
      let thr := c.2.regF .RAS_THR 23 16
      if thr ≠ 0 ∧ thr ≤ c.1 then resetPair k (c.2.setRegF .CXS_CTL 0 0 1 k) else resetPair k c.2)

/-! ## The CX3 loader and mailbox (R450, R451) -/

/-- The image at CX3L_SRC, or the error of Table 10-18: page or read fault, header, CRC (Table 10-17). -/
def cx3Image (s : State) : Except (Nat × List Byte) (Nat × List Byte) :=
  let pa := s.regF .CX3L_SRC 51 6 * 64
  match openBytes s 0x7A pa 64 with
  | none => .error (2, [])
  | some hd =>
    let w0 := w64 (bytesNat hd 0 8)
    let n := fld w0 31 0
    if fld w0 63 32 ≠ 0x43580000 ∨ n < 4 ∨ 524288 < n ∨ n % 4 ≠ 0 ∨ (List.range 48).any (fun i => hd.getD (0x10 + i) 0 != 0) then
      .error (3, [])
    else match openBytes s 0x7A (pa + 64) n with
      | none => .error (2, [])
      | some bs => if crc32c bs = bytesNat hd 8 4 then .ok (bytesNat hd 12 4, bs) else .error (4, bs)

/-- The TCM of a pair whose content is undefined: each listed byte holds a free value. -/
def forgetPair (k : Nat) (s : State) : State :=
  let f := fun (m : NMap Byte) (e : Nat × Byte) =>
    if e.1 / 2 ^ 19 = k then NMap.set 0 m e.1 ((Config.free64 (s.free + e.1)).setWidth 8) else m
  { s with tcm := s.tcm.foldl f s.tcm, free := s.free + 2 ^ 21 }

/-- A load of CX3: held, then its image, then released; on a failure it stays held (R450). -/
def loadCx3 (s : State) : State :=
  let s := resetPair 3 (s.setRegF .CXS_CTL 0 0 1 3)
  match cx3Image s with
  | .error (err, bs) => (forgetPair 3 (tcmPut 3 0 bs s)).setRegF .CX3L_STATUS 3 1 err
  | .ok (id, bs) =>
    ((((tcmPut 3 0 bs s).setRegF .CX3L_STATUS 3 1 0).setRegF .CX3L_STATUS 63 32 id).setRegF .CXS_CTL 0 0 0 3).setPair 3
      (Pair.start 3)

/-- Op 1 of CX3L_CMD (R450): level H or F while CX3L_POLICY.allow is 1; another's ends with err 1, and one while busy sets collide
(R392). -/
def cx3Command (r : Req) (s : State) : State :=
  if bit (s.reg .CX3L_STATUS) 0 then s.setRegF .CX3L_STATUS 4 4 1
  else if !(isHF r && bit (s.reg .CX3L_POLICY) 0) then s.setRegF .CX3L_STATUS 3 1 1
  else loadCx3 s

/-- CX3_LOAD (R450). -/
def execCx3Load (r : Req) (s : State) : Host.Outcome State Fault Refusal := answer s (cx3Command r s)

/-- A write of CX3_MBDB (R451): H and F set in and clear out, CX3 sets out and clears in; setting out raises source 0. -/
def writeMbdb (r : Req) (v : W64) (s : State) : State :=
  if isHF r then
    (let s := if bit v 0 then s.setRegF .CX3_MBDB 0 0 1 else s
     if bit v 1 then s.setRegF .CX3_MBDB 1 1 0 else s)
  else if r = .cx 3 then
    (let s := if bit v 0 then s.setRegF .CX3_MBDB 0 0 0 else s
     if bit v 1 then sysIrq 0 (s.setRegF .CX3_MBDB 1 1 1) else s)
  else s

/-- CX3_MBDB_IN (R451). -/
def execCx3MbdbIn (r : Req) (s : State) : Host.Outcome State Fault Refusal :=
  answer s (if isHF r then writeMbdb r 1 s else s)

/-- CX3_MBDB_OUT (R451). -/
def execCx3MbdbOut (r : Req) (s : State) : Host.Outcome State Fault Refusal :=
  answer s (if r = .cx 3 then writeMbdb r 2 s else s)

end Sys2Proof.Machine
end

