-- ==== Sys2Proof/Machine/Finish.lean ====
section
/-! DEFINITION. Finish and Catch: trigger, flush, copy, record, and the release after Catch (chapter 11). -/

namespace Sys2Proof.Machine

/-! ## Trigger (11.2) -/

/-- FINISH_DONE. -/
def finishDone (s : State) : Bool := bit (s.reg .FIN_STATUS) 63

/-- Every memory stop puts its DIMMs into self-refresh. -/
def allSelfRefresh (s : State) : State :=
  (List.range 16).foldl (fun s n => s.modMc n fun m => { m with selfRefresh := true }) s

/-- FINISH_DONE goes high, and FIN_STATUS.last tells how (R462, Table 11-9). -/
def finishEnds (last : Nat) (s : State) : State :=
  ((((allSelfRefresh s).setRegF .FIN_STATUS 63 63 1).setRegF .FIN_STATUS 62 62 0).setRegF .FIN_STATUS 61 58 7).setRegF
    .FIN_STATUS 57 56 last

/-- BOOT_STATUS.copy and seq go into FIN_STATUS (R488). -/
def noteImage (s : State) : State :=
  (s.setRegF .FIN_STATUS 50 50 (s.regF .BOOT_STATUS 56 56)).setRegF .FIN_STATUS 31 16 (s.regF .BOOT_STATUS 15 0)

/-- Transitions stop, pending slots empty (R521), and cores leave a debug halt (R642). -/
def stopTransitions (s : State) : State :=
  let wake := fun (e : Nat × Core) =>
    (e.1, { e.2 with haltReq := false, run := if e.2.run = .debugHalt then .running else e.2.run })
  let s := { s with power := { s.power with slots := [] }, cores := s.cores.map wake }
  ((s.setRegF .PWR_PKG_STATUS 11 11 0).setRegF .PWR_PKG_STATUS 10 8 0).setRegF .PWR_PKG_STATUS 3 0 5

/-- Whether Finish runs or has ended, so that none starts (R461). -/
def noFinish (s : State) : Bool := finishing s || (finishDone s && !s.fin.catching)

/-- Finish starts (R459 to R461, R468, R469): nothing while one runs or has ended; in Catch the channels go back to self-refresh;
before any release only self-refresh and FINISH_DONE; else step 1, with the message to every stop. -/
def startFinish (s : State) : State :=
  let c := s.fin.catching
  if noFinish s then s
  else
    let hold := s.fin.holdSince.isSome.toNat
    let s := { s with fin := { s.fin with seq := s.fin.seq + 1 } }.setRegF .FIN_STATUS 48 48 hold
    let s := forwardLink 2 0 (stopTransitions s)
    if c then finishEnds 3 { s with fin := { s.fin with catching := false } }
    else if !s.fin.released then noteImage (finishEnds 2 s)
    else
      let s := (s.setRegF .FIN_STATUS 62 62 1).setRegF .FIN_STATUS 61 58 1
      let s := s.setRegF .FIN_CX3 0 0 0
      let s := { s with fin := { s.fin with
        taken := [], startUs := s.timeUs, lines := [], copied := 0, dbCfg := s.reg .DB_CFG,
        cx3Open := s.regF .FIN_CFG 47 32 != 0 } }
      sendLane 0 0 allStops (s.modFab fun f => { f with finishLevel := true })

/-- PWRFAIL_N_FALL (R458). -/
def execPwrfailNFall (s : State) : Host.Outcome State Fault Refusal :=
  answer s { s with pins := { s.pins with pwrfailN := false } }

/-- PWRFAIL_N_RISE (R458). -/
def execPwrfailNRise (s : State) : Host.Outcome State Fault Refusal :=
  answer s { s with pins := { s.pins with pwrfailN := true } }

/-- FINISH_TRIGGER (R458, R459): PWRFAIL_N has been low for the filter time. -/
def execFinishTrigger (s : State) : Host.Outcome State Fault Refusal :=
  answer s (if s.pins.pwrfailN then s else startFinish s)

/-- FIN_FORCE (R460): level F and CX1. -/
def execFinForce (r : Req) (s : State) : Host.Outcome State Fault Refusal :=
  answer s (if isF r || r == .cx 1 then startFinish s else s)

/-- HOLDUP_OK_CHANGE (R457). -/
def execHoldupOkChange (high : Bool) (s : State) : Host.Outcome State Fault Refusal :=
  answer s (showHoldup { s with fin := { s.fin with
    holdSince := if high then some (s.fin.holdSince.getD s.timeUs) else none } })

/-! ## Steps 1 to 3 (R453, R465 to R467) -/

/-- Whether a core's unit has logged a fatal error and takes no part (R601). -/
def deadUnit (s : State) (b : BankId) (u : Nat) : Bool := s.ras.dead.contains (b, u)

/-- A core stops at its retire boundary; its retired stores become visible, the rest is discarded. A core in C3 or held in reset has
neither. -/
def stopCore (n : Nat) (s : State) : State :=
  match (s.core n).run with
  | .held | .c3 => s
  | _ =>
    (drainStores n s).modCore n fun c =>
      { c with run := .stopped, wait := none, fills := [], granted := [], quiet := [], haltReq := false }

/-- The lines of a core's L2 that are dirty there or in the L1D. -/
def dirtyL2 (s : State) (n : Nat) : List Nat :=
  ((cacheLines s (.l2 n)).filter fun l => (mergedL2 s n l.line).any fun m => decide (m.st = .M ∨ m.st = .O)).map CLine.line

/-- The dirty lines of a slice that takes part. -/
def dirtyL3 (s : State) (t : Nat) : List CLine :=
  if s.homes.stopped.contains t then [] else (cacheLines s (.l3 t)).filter fun l => decide (l.st = .M)

/-- Step 2 for a core: its L1D into its L2, and a WBk for every dirty line. -/
def flushCore (n : Nat) (s : State) : State :=
  let s := if deadUnit s (.core n) 0x02 then (cacheLines s (.l1d n)).foldl (fun s l => dropLine (.l1d n) l.line s) s else s
  (dirtyL2 s n).foldl (fun s l => evictL2 n l s) s

/-- Step 2 for a slice: every dirty line to its memory stop. -/
def flushSlice (t : Nat) (s : State) : State :=
  (dirtyL3 s t).foldl (fun s l =>
    memWrite t l.line l.key l.data l.poison (modLine (.l3 t) l.line (fun x => { x with st := .E }) s)) s

/-- The Finish level reaches the island of a stop. -/
def takeFinish (stop : Nat) (s : State) : State :=
  match stopKind stop with
  | some (0, t) => flushSlice t (flushCore (2 * t + 1) (flushCore (2 * t) (stopCore (2 * t + 1) (stopCore (2 * t) s))))
  | some (1, n) => (abandonJobs s).modMc n fun m => { m with selfRefresh := false }
  | some (3, 1) => raiseCx 1 0 s
  | some (3, 3) => raiseCx 3 0 s
  | _ => s

/-- FINISH_MESSAGE (R234, R254, R465, R467): the island of a stop sees the level; one that is in reset or fenced takes no part. With the
last stop step 2 begins. -/
def execFinishMessage (stop : Nat) (s : State) : Host.Outcome State Fault Refusal :=
  answer s (if !finishing s || !s.fab.finishLevel || !allStops.contains stop || s.fin.taken.contains stop then s
    else
      let s := { s with fab := { s.fab with lane := s.fab.lane.erase (stop, 0, 0) } }
      let took := fun (s : State) =>
        let s := { s with fin := { s.fin with taken := s.fin.taken ++ [stop] } }
        if allStops.all s.fin.taken.contains then s.setRegF .FIN_STATUS 61 58 2 else s
      match s.regF .NI_PORT 2 0 stop with
      | 0 => took (takeFinish stop s)
      | 1 => s.setRegF .NI_PORT 2 0 2 stop
      | 2 => s
      | _ => took s)

/-- Whether a line written back still waits for its home, its memory stop or DRAM; what a stopped slice or a dead memory stop would
have to take is lost (R601). -/
def flushBusy (s : State) : Bool :=
  let home := fun (line : Nat) => (homeTile s 0x02 line).any fun t => !s.homes.stopped.contains t
  (s.fab.net.any fun p => match p.op, p.to_ with
    | .MemWr, .mc n => !(s.mc n).dead
    | .WBk, .home t | .WCln, .home t => !s.homes.stopped.contains t
    | _, _ => false) ||
  (s.homes.txns.any fun x => !s.homes.stopped.contains x.slice) ||
  (s.homes.wbs.any fun w => home w.line) ||
  (List.range 16).any fun n => !(s.mc n).dead && (s.mc n).ents != []

/-- Lines that have become dirty since their tile was flushed, by transactions already in progress (R466). -/
def flushAgain (s : State) : State :=
  (List.range 72).foldl (fun s t => flushSlice t (flushCore (2 * t + 1) (flushCore (2 * t) s))) s

/-- Whether a dirty line is left. -/
def dirtyLeft (s : State) : Bool :=
  (List.range 144).any (fun n => dirtyL2 s n != []) || (List.range 72).any fun t => dirtyL3 s t != []

/-! ## Step 4: Finish copy (11.5) -/

/-- Where a line of a source lies in DRAM, if in an interleave region: the primary copy. -/
def copySource (s : State) (line : Nat) : Option (Nat × Nat) :=
  (memOf s 0x0A line).map fun e => (servingChan s (isMirrored s 0x0A line) e.1, e.2)

/-- Whether a line is CXL memory behind a stop set in ports whose island answers. -/
def copyTarget (s : State) (line : Nat) : Bool :=
  match decodeAddr s 0x0A (line * 64) with
  | .aperture i =>
    let n := fld (samSeen s 0x0A .SAM_ACFG i) 7 4
    apertureKind s 0x0A i == 1 && fld (s.ioAt n).cfg 3 0 == 2 && bit (s.reg .FIN_COPY_CTL) n &&
      portStatus s (ioStop n) == 0 && bit (s.reg .IO_LINK n (fld (samSeen s 0x0A .SAM_ACFG i) 9 8)) 63
  | _ => false

/-- Copies `count` lines as they stand in DRAM, under key ID 0 (R475); ends at a line that cannot be copied, with the lines
copied. -/
def copyLines (src dst : Nat) : Nat → State → Nat × State
  | 0, s => (0, s)
  | n + 1, s =>
    match copySource s src with
    | none => (0, s)
    | some (ch, loc) =>
      if !copyTarget s dst then (0, s)
      else
        let r := dramRead s ch loc src 0
        let x := copyLines (src + 1) (dst + 1) n (memStore dst 0 r.1 r.2.1 s)
        (x.1 + 1, x.2)

/-- The progress block (R478): the Finish count, the complete ranges, the bytes copied of the lowest incomplete one. -/
def putProgress (bytes : Nat) (s : State) : State :=
  let a := s.regF .FIN_COPY_CTL 51 12 * 64
  if copyTarget s a then
    memStore a 0 (patchLine 0 (((leBytes 8 s.fin.seq ++ leBytes 8 s.fin.copied.toNat ++ leBytes 8 bytes).zipIdx).map
      fun e => (e.2, e.1))) false s
  else s

/-- Range `i` is copied, or ends incomplete (R474, R479). -/
def copyRange (acc : Nat × State) (i : Nat) : Nat × State :=
  let s := acc.2
  if !bit (s.reg .FIN_RNG_SRC 0 i) 63 then acc
  else
    let lines := s.regF .FIN_RNG_LEN 47 12 0 i * 64
    let r := copyLines (s.regF .FIN_RNG_SRC 51 12 0 i * 64) (s.regF .FIN_RNG_DST 51 12 0 i * 64) lines s
    let whole_ := r.1 = lines
    let s := if whole_ then { r.2 with fin := { r.2.fin with copied := r.2.fin.copied ||| (1#16 <<< i) } } else r.2
    let lowest := !((List.range i).any fun j => bit (s.reg .FIN_RNG_SRC 0 j) 63 && !s.fin.copied.getLsbD j)
    let bytes := if !whole_ ∧ lowest then r.1 * 64 else acc.1
    (bytes, putProgress bytes s)

/-- Finish copy, in ascending order of the ranges. -/
def finishCopy (s : State) : State := ((List.range 16).foldl copyRange (0, s)).2

/-- FLUSH_COMPLETE (R465, R466, R474): steps 2 and 3 have ended in every stop; the copy follows where it is enabled. -/
def execFlushComplete (s : State) : Host.Outcome State Fault Refusal :=
  answer s (if !finishing s || s.regF .FIN_STATUS 61 58 != 2 then s
    else if dirtyLeft s then flushAgain s
    else if flushBusy s then s
    else
      let s := { s with fin := { s.fin with flushUs := s.timeUs - s.fin.startUs } }
      if bit (s.reg .FIN_CFG) 16 then finishCopy (s.setRegF .FIN_STATUS 61 58 4) else s.setRegF .FIN_STATUS 61 58 5)

/-- FINISH_COPY_COMPLETE (R465, R479). -/
def execFinishCopyComplete (s : State) : Host.Outcome State Fault Refusal :=
  answer s (if finishing s && s.regF .FIN_STATUS 61 58 == 4 then s.setRegF .FIN_STATUS 61 58 5 else s)

/-! ## CX3's window (R470) -/

/-- A write of FIN_CX3 (Table 11-4): CX3 only. -/
def writeFinCx3 (r : Req) (v : W64) (s : State) : State :=
  if r ≠ .cx 3 then s
  else
    let s := s.setRegF .FIN_CX3 0 0 (fld v 0 0)
    if bit v 0 then { s with fin := { s.fin with cx3Open := false } } else s

/-- FIN_CX3_DONE (R470). -/
def execFinCx3Done (r : Req) (s : State) : Host.Outcome State Fault Refusal := answer s (writeFinCx3 r 1 s)

/-- CX3_WINDOW_EXPIRY (R470). -/
def execCx3WindowExpiry (s : State) : Host.Outcome State Fault Refusal :=
  answer s (if finishing s then { s with fin := { s.fin with cx3Open := false } } else s)

/-! ## Steps 5 to 7: the record (11.6) -/

/-- The record region. -/
def recordBase (s : State) : Nat := s.regF .FIN_REGION 51 20 * 2 ^ 20

/-- The key table's bytes. -/
def keyTable (s : State) : List Byte := (peekBytes s (tableAddr s 0) 0x80000 0).1

/-- The valid entries of a key table. -/
def tableSlots (t : List Byte) : Nat := ((List.range 4096).filter fun k => bit (w64 (leNat ((t.drop (k * 128 + 0x48)).take 8))) 63).length

/-- Whether every valid range has been copied. -/
def copyDone (s : State) : Bool :=
  bit (s.reg .FIN_CFG) 16 && (List.range 16).all fun i => !bit (s.reg .FIN_RNG_SRC 0 i) 63 || s.fin.copied.getLsbD i

/-- The record but for its tag (Table 11-7). -/
def recordBody (s : State) (table : List Byte) : List Byte :=
  let w3 := s.fin.flushUs % 2 ^ 32 * 2 ^ 32 + tableSlots table * 2 ^ 16 + (copyDone s).toNat * 2 ^ 10 +
    s.regF .FIN_CFG 16 16 * 2 ^ 9 + s.regF .FIN_STATUS 48 48 * 2 ^ 8 + s.regF .KEY_EPOCH 6 0
  let img := s.regF .BOOT_STATUS 56 56 * 2 ^ 16 + s.regF .BOOT_STATUS 15 0
  let b := leBytes 8 (0x4649 * 2 ^ 48 + 2 ^ 40 + 2 ^ 32) ++ leBytes 8 s.fin.seq ++ leBytes 8 (s.reg .FIN_RESUME).toNat ++ leBytes 8 w3 ++
    (List.range 16).flatMap (fun c => leBytes 4 (NMap.get 0 s.fin.lines c % 2 ^ 32)) ++
    leBytes 8 s.fin.dbCfg.toNat ++ leBytes 8 img
  b ++ List.replicate (0xFD0 - b.length) 0

/-- The tag of a record and key table (R483). -/
def recordTag (s : State) (body table : List Byte) : List Byte := hmac384 (Config.finishKey (s.regF .KEY_EPOCH 6 0)) (body ++ table)

/-- CX1 writes the record, where the region is valid. -/
def writeRecordRegion (s : State) : State :=
  if bit (s.reg .FIN_REGION) 0 then
    (let t := keyTable s
     let b := recordBody s t
     poke (recordBase s) 0 (b ++ recordTag s b t) s)
  else s

/-- The largest L_c in units of 1,024 lines. -/
def maxLines (s : State) : Nat := min 0xFFFF ((s.fin.lines.foldl (fun m e => max m e.2) 0) / 1024)

/-- FINISH_RECORD (R470, R480, R481, R488): CX3 is held, the record is written, the DIMMs enter self-refresh, FINISH_DONE rises. -/
def execFinishRecord (s : State) : Host.Outcome State Fault Refusal :=
  answer s (if !finishing s || s.regF .FIN_STATUS 61 58 != 5 || s.fin.cx3Open then s
    else
      let s := resetPair 3 (s.setRegF .CXS_CTL 0 0 1 3)
      let valid := bit (s.reg .FIN_REGION) 0
      noteImage (finishEnds (if valid then 1 else 2) ((writeRecordRegion s).setRegF .FIN_STATUS 47 32 (maxLines s))))

/-! ## Catch (11.8) -/

/-- Whether the record region can be read with channels lost. -/
def recordReadable (s : State) (lost : BitVec 16) : Bool :=
  (List.range (2 ^ 20 / 64)).all fun i => (copySource s (recordBase s / 64 + i)).any fun e => !lost.getLsbD e.1

/-- The result of Table 11-12. The record is read where the map before the reset has it; the tag is that of the current epoch
(R483, R484). -/
def catchResult (s : State) (lost : BitVec 16) : Nat :=
  let last := s.regF .FIN_STATUS 57 56
  if !bit (s.reg .FIN_REGION) 0 || !(last == 1 || last == 3) then 1
  else if !recordReadable s lost then 2
  else
    let r := (peekBytes s (recordBase s) 4096 0).1
    let w0 := w64 (leNat (r.take 8))
    if fld w0 63 32 ≠ 0x46490101 ∨ recordTag s (r.take 0xFD0) (keyTable s) ≠ r.drop 0xFD0 then 2
    else if leNat ((r.drop 0x18).take 1) % 128 ≠ s.regF .KEY_EPOCH 6 0 then 3
    else if bit (s.reg .KEY_EPOCH) 8 then 4
    else if lost ≠ 0 then 5 else 0

/-- The keys that the table's valid entries unwrap to. -/
def tableKeys (s : State) : List (Nat × BitVec 512) :=
  let t := keyTable s
  (List.range 4096).filterMap fun k =>
    let e := (t.drop (k * 128)).take 128
    let w := w64 (leNat ((e.drop 0x48).take 8))
    if bit w 63 ∧ fld w 11 0 = k ∧ k ≠ 0 then
      (kwUnwrap (wrapBytes s) (e.take 72)).map fun b => (k, BitVec.ofNat 512 (leNat b))
    else none

/-- An out-of-service state of the log is restored (R49). -/
def restoreEntry (s : State) (e : LogEntry) : State :=
  match e.kind with
  | 1 => (match wordResource e.status with | some x => takeOut x s | none => s)
  | 2 =>
    (match wordWay e with
     | some (c, w) =>
       let f := wayField c
       (s.setRegF f.1 (f.2.2 + w) (f.2.2 + w) 1 f.2.1).bumpReg .AVAIL_WAYS (availField c + 15) (availField c)
     | none => s)
  | _ => s

/-- A channel that does not leave self-refresh with its saved training goes out of service, and its engine with it (R47, R48,
R489). -/
def loseChannel (s : State) (n : Nat) : State :=
  ((takeOut (.channel n) s).setRegF .FIN_STATUS n n 1).setRegF .SW_STATUS 1 0 3 n

/-- CATCH_START (R463, R487 to R491): Catch reset; the channels that stay lost; the record's result, and for 0 and 5 the keys of its
table; the out-of-service states of the log. -/
def execCatchStart (lost : BitVec 16) (powerLost : Bool) (s : State) : Host.Outcome State Fault Refusal :=
  answer s (if !finishDone s || s.fin.catching || !s.pins.pwrfailN then s
    else
      let result := catchResult s lost
      let keys := if (result = 0 ∨ result = 5) ∧ !bit (s.reg .KEY_EPOCH) 9 then tableKeys s else []
      let dimms := (List.range 16).map fun n => s.reg .MC_DIMM n
      let base := recordBase s
      let s := if powerLost then { s with power := { s.power with lost := List.range 16 } } else s
      let s := ((showHoldup (s.afterReset .ctch)).setRegF .FIN_STATUS 63 63 1).setRegF .FIN_STATUS 15 0 0
      let s := recordWake 5 0 0x20 s
      let s := (List.range 16).foldl (fun s n => if lost.getLsbD n then s else s.setReg .MC_DIMM (dimms.getD n 0) n) s
      let s := (liveEntries s).foldl restoreEntry s
      let s := ((List.range 16).filter fun n => lost.getLsbD n).foldl loseChannel s
      let s := s.modHomes fun h => { h with inService := tilesIn s }
      let s := keys.foldl (fun s k => setKey k.1 (.loaded k.2) s) s
      { s with fin := { s.fin with result, record := base } })

/-- CATCH_RELEASE (R462, R491, R492, R495): once the image is committed, the record is consumed, FINISH_DONE falls and every in-service
core starts. -/
def execCatchRelease (s : State) : Host.Outcome State Fault Refusal :=
  answer s (if !s.fin.catching || s.regF .BOOT_STATUS 63 60 != 2 then s
    else
      let r := s.fin.result
      let s := if r = 0 ∨ r = 3 ∨ r = 4 ∨ r = 5 then pokeNat (s.fin.record + 4) 0 1 2 s else s
      let s := { s with fin := { s.fin with catching := false } }.setRegF .FIN_STATUS 63 63 0
      let pc := s.regF .FIN_RESUME 63 2 * 4
      let g1 := if r = 0 ∨ r = 5 then s.fin.record else 0
      releaseCores (w64 (if pc = 0 then s.boot.entry else pc)) g1 r (liveCores s) (s.setRegF .BOOT_STATUS 63 60 3))

end Sys2Proof.Machine
end

