-- ==== Sys2Proof/Machine/SysMap.lean ====
section
/-! DEFINITION. Writes of the system address map, their broadcast, and two-socket tracking (01.4, 05.9, 07.2, 13.3). -/

namespace Sys2Proof.Machine

/-! ## Rules for entries (R38, R279, R305, R539) -/

/-- Whether two ranges share an address. -/
def meets (a b c d : Nat) : Bool := decide (a < d) && decide (c < b)

/-- The byte range of a region or aperture entry, when valid. -/
def regionRange (s : State) (i : Nat) : Option (Nat × Nat) :=
  let v := s.reg .SAM_RADDR 0 i
  if bit v 63 then some (fld v 21 0 * 2 ^ 30, fld v 53 32 * 2 ^ 30) else none
def apertureRange (s : State) (i : Nat) : Option (Nat × Nat) :=
  let v := s.reg .SAM_ABASE 0 i
  if bit v 63 then some (fld v 51 20 * 2 ^ 20, s.regF .SAM_ACFG 51 20 0 i * 2 ^ 20) else none

/-- Whether an entry's range meets another's: `region` tells its kind. -/
def overlaps (s : State) (region : Bool) (i : Nat) : Bool :=
  match (if region then regionRange s i else apertureRange s i) with
  | none => false
  | some (a, b) =>
    ((List.range 8).any fun j => !(region && j == i) && (match regionRange s j with
      | some (c, d) => meets a b c d
      | none => false)) ||
    ((List.range 32).any fun j => !(!region && j == i) && (match apertureRange s j with
      | some (c, d) => meets a b c d
      | none => false))

/-- The channel-local range of region `i`, in bytes. -/
def localRange (s : State) (i : Nat) : Nat × Nat :=
  let cfg := s.reg .SAM_RCFG 0 i
  let a := s.reg .SAM_RADDR 0 i
  let lo := fld cfg 47 32 * 2 ^ 30
  (lo, lo + (fld a 53 32 - fld a 21 0) * 2 ^ 30 / max (chanList cfg).length 1)

/-- The channels whose local range region `i` takes: its own and, mirrored, their partners. -/
def regionChans (s : State) (i : Nat) : List Nat :=
  let cfg := s.reg .SAM_RCFG 0 i
  chanList cfg ++ (if bit cfg 63 then (chanList cfg).map (· + 1) else [])

/-- Whether a valid region breaks a rule of R279 or R305. -/
def regionBad (s : State) (i : Nat) : Bool :=
  let a := s.reg .SAM_RADDR 0 i
  let cfg := s.reg .SAM_RCFG 0 i
  let cs := chanList cfg
  let n := cs.length
  let size := fld a 53 32 - fld a 21 0
  bit a 63 && (!([1, 2, 4, 8, 12, 16].contains n) || decide (6 ≤ fld cfg 58 56) || decide (fld a 53 32 ≤ fld a 21 0) ||
    size % max n 1 != 0 ||
    ((regionChans s i).any fun c => !bit (s.reg .MC_DIMM c) 0 ||
      decide (s.regF .MC_DIMM 47 32 c < fld cfg 47 32 + size / max n 1)) ||
    ((List.range 8).any fun j => j != i && (regionRange s j).isSome &&
      (regionChans s i).any (fun c => (regionChans s j).contains c) &&
      meets (localRange s i).1 (localRange s i).2 (localRange s j).1 (localRange s j).2) ||
    (bit cfg 63 && (!([1, 2, 4, 8].contains n) || cs.any fun c => c % 2 == 1)))

/-- Whether a valid aperture breaks a rule of R38 or R539. -/
def apertureBad (s : State) (i : Nat) : Bool :=
  let c := s.reg .SAM_ACFG 0 i
  let pers := s.regF .IO_CFG 3 0 (fld c 7 4)
  let kind := fld c 1 0
  match apertureRange s i with
  | none => false
  | some (lo, hi) => decide (hi ≤ lo) || decide (crsBase < hi) || decide (12 ≤ fld c 7 4) || (kind == 1 && pers != 2) ||
      (kind == 2 && pers != 3) || ((kind == 0 || kind == 3) && (pers == 3 || pers == 4))

/-! ## Writes and their broadcast (R39, R41, R42) -/

/-- The register a map entry's half is. -/
def samName : SamReg → RegName
  | .RADDR => .SAM_RADDR
  | .RCFG => .SAM_RCFG
  | .ABASE => .SAM_ABASE
  | .ACFG => .SAM_ACFG

/-- A write of a map entry: by level H, level F or CX0 alone (R277, R539); ignored with SAM_STATUS.conflict where it would break a
rule; else the SV0 copy takes it and its broadcast to the other 103 copies begins. -/
def writeSam (r : Req) (e : SamReg) (i : Nat) (v : W64) (s : State) : State :=
  let n := samName e
  let region := e == .RADDR || e == .RCFG
  if !(isHF r || r == .cx 0) then refuse (.fabric 0x02) 0x02 r s
  else
    let old := s.reg n 0 i
    let t := s.writeReg n v 0 i
    if overlaps t region i || (if region then regionBad t i else apertureBad t i) then s.setRegF .SAM_STATUS 1 1 1
    else
      let t := t.setRegF .SAM_STATUS 0 0 1
      t.modFab fun f => { f with bcasts := f.bcasts ++
        [⟨.samUpd, 0x02, .ni, old, t.reg n 0 i, samCode n i, .untranslated, [], allStops.filter fun p => p != 0x02⟩] }

/-- SAM_ENTRY_WRITE (R38, R39, R277, R279, R539). -/
def execSamEntryWrite (r : Req) (e : SamReg) (i : Nat) (v : W64) (s : State) : Host.Outcome State Fault Refusal :=
  answer s (if i < (if e = .RADDR ∨ e = .RCFG then 8 else 32) then writeSam r e i v s else s)

/-- Every copy has applied a broadcast: it is counted, and pending clears with the last (R42, Table 01-7). -/
def samDone (b : Bcast) (s : State) : State :=
  let s := s.modFab fun f => { f with bcasts := f.bcasts.erase b }
  let s := s.setRegF .SAM_STATUS 31 16 (s.regF .SAM_STATUS 31 16 + 1)
  if s.fab.bcasts.any fun b => decide (b.kind = .samUpd) then s else s.setRegF .SAM_STATUS 0 0 0

/-- SAMUPD (R41, R249): a stop applies the oldest update it has not yet applied. -/
def execSamupd (stop : Nat) (s : State) : Host.Outcome State Fault Refusal :=
  answer s (match s.fab.bcasts.find? fun b => decide (b.kind = .samUpd) && b.missing.contains stop with
    | none => s
    | some b =>
      let b' := { b with missing := b.missing.filter fun p => p != stop }
      let s := s.modFab fun f => { f with bcasts := f.bcasts.map fun x => if x = b then b' else x }
      if b'.missing = [] then samDone b' s else s)

/-! ## Two sockets (R214 to R217) -/

/-- Copies on this part make way for a grant to the other socket: all of them for one of E or M, which takes the data with it;
else the owner keeps a shared or owned copy (Table 05-6). -/
def yieldLine (line : Nat) (excl : Bool) (s : State) : State :=
  if excl then whole line (invalidateAll line) s
  else whole line (fun s => match homeTile s 0x02 line with
    | none => s
    | some t =>
      match findDir s t line with
      | some (w, e) =>
        if e.st ≠ .EM then s
        else
          let s := mergeDirty e.owner line s
          let dirty : Bool := match findLine s (.l2 e.owner) line with
            | some (_, l) => decide (l.st = .M)
            | none => false
          let s' := setDir t line w (some { e with st := if dirty then .O else .S })
            (modLine (.l2 e.owner) line (fun l => { l with st := if dirty then .O else .S }) s)
          shadowMsg t line s s'
      | none => s) s

/-- REMOTE_GRANT (R214, R217): a tracker entry, of 64 Ki, or the untracked count. -/
def execRemoteGrant (mc line : Nat) (excl : Bool) (s : State) : Host.Outcome State Fault Refusal :=
  answer s (if decide (16 ≤ mc) || (localLine s mc line).isNone then s
    else (yieldLine line excl s).modMc mc fun m =>
      match NMap.find? m.tracker line with
      | some x => { m with tracker := NMap.put m.tracker line (x || excl) }
      | none =>
        if m.tracker.length < 65536 then { m with tracker := NMap.put m.tracker line excl }
        else { m with untracked := m.untracked + 1 })

/-- The other socket's data of a line it may have changed: a free value, which memory and the grants on their way take. -/
def remoteData (_mc line : Nat) (s : State) : State :=
  let d := Config.freeLine s.free
  let s := { s with free := s.free + 1 }
  let key := match s.fab.net.find? fun p => p.addr == line && opClass p.op == 3 with | some p => p.key | none => 0
  let s := memStore line key d false s
  (s.modFab fun f => { f with net := f.net.map fun p =>
    if p.addr = line ∧ (p.op = .DatS ∨ p.op = .DatE ∨ p.op = .DatM ∨ p.op = .DatRd) then { p with data := d, poison := false } else p })


/-- SOCKET_SNOOP (R215): the other socket answers. It keeps no copy when asked for ownership, else no exclusive one. -/
def execSocketSnoop (mc line : Nat) (excl : Bool) (s : State) : Host.Outcome State Fault Refusal :=
  answer s (if decide (16 ≤ mc) || !((s.mc mc).remoteSnoops.contains (line, excl)) then s
    else
      let had := NMap.find? (s.mc mc).tracker line
      let s := s.modMc mc fun m => { m with
        remoteSnoops := m.remoteSnoops.erase (line, excl)
        tracker := if had.isNone then m.tracker else if excl then NMap.erase m.tracker line else NMap.put m.tracker line false }
      if had = some false then s else remoteData mc line s)

/-- EVICTION_REPORT (R216, R217). -/
def execEvictionReport (mc line : Nat) (s : State) : Host.Outcome State Fault Refusal :=
  answer s (if 16 ≤ mc then s
    else s.modMc mc fun m =>
      if (NMap.find? m.tracker line).isSome then { m with tracker := NMap.erase m.tracker line }
      else { m with untracked := m.untracked - 1 })

end Sys2Proof.Machine
end

