-- ==== Sys2Proof/Machine/Ras.lean ====
section
/-! DEFINITION. Error records, CX2's aggregation and log, resources out of service, error injection (01.9, 14.3 to 14.5). -/

namespace Sys2Proof.Machine

/-! ## Error records (R208, R210, R594) -/

/-- Whether a bank exists (Table 14-6). -/
def bankThere : BankId → Bool
  | .core n => decide (n < 144)
  | .tile t => decide (t < 72)
  | .mc n => decide (n < 16)
  | .io n => decide (n < 12)
  | .sv k => decide (k < 4)
  | .fabric p => (stopKind p).isSome

/-- The cache a record of units 0x01 to 0x03, 0x10 and 0x11 is about. -/
def recordCache (b : BankId) (unit : Nat) : Option CacheId :=
  match b, unit with
  | .core n, 0x01 => some (.l1i n)
  | .core n, 0x02 => some (.l1d n)
  | .core n, 0x03 => some (.l2 n)
  | .tile t, 0x10 => some (.l3 t)
  | _, _ => none

/-- The lines of a set of a cache; those of one way of it when `way` names one. -/
def setLines (s : State) (c : CacheId) (set : Nat) (way : Option Nat) : List CLine :=
  (s.lines.filter fun e => e.1 / 65536 == cacheNo c && e.1 / 16 % 4096 == set && way.all fun w => e.1 % 16 == w).map Prod.snd

/-- What Table 05-11 does with the lines an error has met: clean L1 lines go, a dirty L1D line leaves its L2 copy poisoned, an L2 or
L3 line is poisoned, and a slice with a fatal tag or directory error stops. -/
def cacheError (b : BankId) (e : ErrRec) (s : State) : State :=
  let line := (e.addr.getD 0).toNat % 2 ^ 52 / 64
  let way := fld (e.info.setWidth 64) 15 12
  let set := fld (e.info.setWidth 64) 11 0
  let drop := fun (c : CacheId) (ls : List CLine) (s : State) => ls.foldl (fun s l => dropLine c l.line s) s
  match b, e.unit.toNat, e.cls with
  | .core n, 0x01, .corrected => drop (.l1i n) (setLines s (.l1i n) set (some way)) s
  | .core n, 0x02, .corrected =>
    let clean := (setLines s (.l1d n) set (if e.type = 0x03 then none else some way)).filter fun l => decide (l.st ≠ .M)
    if e.type = 0x01 then s else drop (.l1d n) clean s
  | .core n, 0x02, .deferred =>
    modLine (.l2 n) line (fun l => { l with poison := true, st := if l.st = .E then .M else l.st }) (dropLine (.l1d n) line s)
  | .core n, 0x03, .deferred => modLine (.l2 n) line (fun l => { l with poison := true }) s
  | .tile t, 0x10, .deferred => modLine (.l3 t) line (fun l => { l with poison := true }) s
  | .tile t, 0x11, .fatal =>
    s.modHomes fun h => { h with stopped := if h.stopped.contains t then h.stopped else h.stopped ++ [t] }
  | _, _, _ => s

/-- ERROR_RECORD (R208, R210, R594): the record, its effect on the array, and the count of the way's corrected errors. -/
def execErrorRecord (b : BankId) (e : ErrRec) (s : State) : Host.Outcome State Fault Refusal :=
  answer s (if !bankThere b then s
    else
      let s := record b e (cacheError b e s)
      match recordCache b e.unit.toNat with
      | some c => if e.cls = .corrected ∧ (e.type = 0x01 ∨ e.type = 0x03) then countWay c (fld (e.info.setWidth 64) 15 12) s else s
      | none => s)

/-! ## Out of service (R47, R48, R309, R372) -/

/-- Whether a resource is in service. -/
def inServiceNow (s : State) : Resource → Bool
  | .tile t => decide (t < 72) && bit (s.reg .STOP_ID (tileStop t)) 32
  | .channel n => decide (n < 16) && bit (s.reg .AVAIL_MEM) n
  | .sweep n => decide (n < 16) && bit (s.reg .AVAIL_MEM) (16 + n)
  | .io n => decide (n < 12) && bit (s.reg .AVAIL_IO) n

/-- Whether a channel belongs to a mirrored region (R305). -/
def mirrorMember (s : State) (n : Nat) : Bool :=
  (List.range 8).any fun i => bit (s.reg .SAM_RADDR 0 i) 63 && bit (s.reg .SAM_RCFG 0 i) 63 && (regionChans s i).contains n

/-- The other member of a mirrored pair logs that a member has gone (R309). -/
def mirrorChange (n : Nat) (s : State) : State :=
  let o := if n % 2 = 0 then n + 1 else n - 1
  if mirrorMember s n ∧ inServiceNow s (.channel o) then
    record (.mc o) { mkRec .uncorrected (mcStop o) 0x30 0x15 0 with misc := some (w64 n) } s
  else s

/-- CX2 takes a resource out of service and logs it. -/
def outOfService (x : Resource) (s : State) : State :=
  if !inServiceNow s x then s
  else
    let s := match x with
      | .channel n => mirrorChange n (if inServiceNow s (.sweep n) then engineOut n s else s)
      | .sweep n => engineOut n s
      | _ => s
    takeOut x s

/-- RESOURCE_OUT_OF_SERVICE (R47): CX0 before it releases CX2, CX2 at every other time; another's write is ignored. -/
def execResourceOutOfService (r : Req) (x : Resource) (s : State) : Host.Outcome State Fault Refusal :=
  let cx2Held := bit (s.reg .CXS_CTL 2) 0
  answer s (if !inServiceNow s x then s
    else if r = .cx 0 ∧ cx2Held then outOfService x s
    else if r = .cx 2 ∧ !cx2Held then logOut x (outOfService x s)
    else s)

/-! ## CX2's service of records (R600 to R602) -/


/-- Events of a kind, several at once. -/
def countEvents (kind place n : Nat) (s : State) : Nat × State :=
  (List.range n).foldl (fun x _ => countEvent kind place dayUs x.2) (0, s)

/-- An action of Table 14-10 raises the RAS notification (R600). -/
def notify (s : State) : State := sysIrq 2 s

/-- Corrected DRAM errors of one row: at row_ce the row is repaired and logged for hard repair. -/
def rowErrors (mc : Nat) (w misc : W64) (s : State) : State :=
  let row := fld misc 39 0
  let x := countEvents 1 (mc * 2 ^ 60 + fld w 15 7 * 2 ^ 40 + row) (1 + fld w 31 16) s
  let thr := x.2.regF .RAS_THR 7 0
  let before := x.1 - (1 + fld w 31 16)
  if thr = 0 ∨ x.1 < thr ∨ thr ≤ before then x.2
  else notify (appendLog 3 w 0 misc s.timeUs (softRepair mc (fld w 15 12) (fld w 11 7) row x.2))

/-- Deferred DRAM errors of one rank: at rank_ue a mirror member is taken out of service. -/
def rankErrors (mc : Nat) (w : W64) (s : State) : State :=
  let x := countEvents 2 (mc * 16 + fld w 15 12) 1 s
  let thr := x.2.regF .RAS_THR 15 8
  if thr = 0 ∨ x.1 ≠ thr then x.2
  else if mirrorMember x.2 mc ∧ inServiceNow x.2 (.channel mc) then notify (logOut (.channel mc) (outOfService (.channel mc) x.2))
  else notify x.2

/-- Uncorrected-recoverable and deferred records of one tile: at tile_ue it is logged out of service from the next reset on. -/
def tileErrors (t : Nat) (s : State) : State :=
  let x := countEvents 3 t 1 s
  let thr := x.2.regF .RAS_THR 31 24
  if thr = 0 ∨ x.1 ≠ thr then x.2
  else
    let s := { x.2 with ras := { x.2.ras with tilesOut := x.2.ras.tilesOut ++ [t] } }
    notify (logOut (.tile t) s)

/-- The thresholds of Table 14-10 on one record. The records of a tile are those of its banks, the fabric bank of its stop among them
(log entry 54). -/
def thresholds (b : BankId) (w misc : W64) (s : State) : State :=
  let cls := fld w 61 60
  let s := match b with
    | .mc n =>
      if fld w 47 40 = 0x30 then
        (if cls = 0 ∧ fld w 39 32 = 0x01 then rowErrors n w misc s else if cls = 1 then rankErrors n w s else s)
      else s
    | _ => s
  if cls = 1 ∨ cls = 2 then
    (match b with
     | .core n => tileErrors (n / 2) s
     | .tile t => tileErrors t s
     | .fabric stop => (match stopKind stop with
       | some (0, t) => tileErrors t s
       | _ => s)
     | _ => s)
  else s

/-- The action on a fatal record (R601): a Warm reset (which Finish refuses, R529), none, or Finish. -/
def fatalAction (s : State) : State :=
  match s.regF .RAS_CFG 1 0 with
  | 0 => if finishing s then s else warmReset s
  | 1 => s
  | _ => startFinish s

/-- A record leaves its bank: valid clears, and lost with the last (Table 14-9). -/
def clearRecord (base slot : Nat) (s : State) : State :=
  let s := s.setRegF .ERR_STATUS 63 63 0 base slot
  if (List.range 4).any (slotValid s base) then s else s.setRegF .ERR_CTL 47 32 0 base

/-- A record of a disabled way is logged as such (kind 2, Table 14-12). -/
def logDisabled (b : BankId) (w : W64) (s : State) : State :=
  match recordCache b (fld w 47 40) with
  | some c => if fld w 39 32 = 0x0A then logWay c (fld w 15 12) false s else s
  | none => s

/-- RAS_RECORD_SERVICE (R600 to R602). -/
def execRasRecordService (b : BankId) (slot : Nat) (s : State) : Host.Outcome State Fault Refusal :=
  let base := bankBase b
  let w := s.reg .ERR_STATUS base slot
  let addr := s.reg .ERR_ADDR base slot
  let misc := s.reg .ERR_MISC base slot
  let time := s.reg .ERR_TIME base slot
  let cls := fld w 61 60
  answer s (if !bankThere b || decide (4 ≤ slot) || !bit w 63 || !bit (s.reg .ERR_CTL base) cls || !pairAlive s 2 then s
    else
      let s := clearRecord base slot s
      let s := if cls = 0 then { s with ras := { s.ras with gathered := s.ras.gathered ++ [[w, addr, misc, time]] } }
        else appendLog 0 w addr misc time.toNat s
      let s := thresholds b w misc (logDisabled b w s)
      let s := if 2 ≤ cls then notify s else s
      if cls = 3 then fatalAction s else s)

/-- CORRECTED_LOG_FLUSH (R602). -/
def execCorrectedLogFlush (s : State) : Host.Outcome State Fault Refusal :=
  answer s (if !pairAlive s 2 then s
    else
      let t := s.ras.gathered.foldl (fun s g =>
        appendLog 0 (g.getD 0 0) (g.getD 1 0) (g.getD 2 0) (g.getD 3 0).toNat s) s
      { t with ras := { t.ras with gathered := [] } })

/-! ## Error injection (R603, R604) -/

/-- A write of ERR_INJ or ERR_INJA: F, CX0 and CX2 while SEC_INJ_EN.en is 1; another requester's is logged in the SV0 fabric bank; one
by F or CX2 whose match line is sealed memory is logged in the bank. -/
def writeInj (r : Req) (n : RegName) (b : BankId) (v : W64) (s : State) : State :=
  let base := bankBase b
  if !(isF r || r == .cx 0 || r == .cx 2) then refuse (.fabric 0x02) 0x02 r s
  else if !bit (s.reg .SEC_INJ_EN) 0 then s
  else
    let t := s.writeReg n v base
    let pa := t.regF .ERR_INJA 51 6 base * 64
    if bit (t.reg .ERR_INJ base) 0 && r != .cx 0 && (pageIn s pa 1 || pageIn s pa 3) then
      record b { mkRec .corrected (base >>> 24) 0x53 0x10 (reqStop r) with secret := true } s
    else t

/-- ERR_INJ_ARM (R603, R604). -/
def execErrInjArm (r : Req) (b : BankId) (v : W64) (s : State) : Host.Outcome State Fault Refusal :=
  answer s (if bankThere b then writeInj r .ERR_INJ b v s else s)

end Sys2Proof.Machine
end

