-- ==== Sys2Proof/Machine/IoStops.lean ====
section
/-! DEFINITION. I/O stops: personalities and links, requests sent on links, the IOTU and inbound DMA, Socket Links (13.1 to 13.4,
13.8 to 13.11). -/

namespace Sys2Proof.Machine

/-! ## Personalities and links (13.1) -/

/-- The personality and bifurcation in force (R534). -/
def persOf (s : State) (n : Nat) : Nat := fld (s.ioAt n).cfg 3 0
def bifOf (s : State) (n : Nat) : Nat := fld (s.ioAt n).cfg 11 8

/-- The links of a stop, by its bifurcation (Table 13-2). -/
def linkCount (s : State) (n : Nat) : Nat :=
  match persOf s n with
  | 0 => 0
  | 1 | 2 => [1, 2, 3, 3, 4].getD (bifOf s n) 0
  | 3 | 4 => 1
  | _ => 0

/-- log2 of the widest a link may be (Table 13-2). -/
def linkWidth (s : State) (n k : Nat) : Nat :=
  match bifOf s n with
  | 0 => 4
  | 1 => 3
  | 2 => if k = 0 then 3 else 2
  | 3 => if k = 2 then 3 else 2
  | _ => 2

/-- Whether a link is up. -/
def linkUp (s : State) (n k : Nat) : Bool := decide (k < 4) && bit (s.reg .IO_LINK n k) 63

/-- The highest rate a stop trains at (IO_CFG.max_rate). -/
def maxRate (s : State) (n : Nat) : Nat :=
  let r := s.regF .IO_CFG 18 16 n
  if r = 0 ∨ r = 7 then 6 else r

/-- Table 13-20. -/
def replayUs (rate : Nat) : Nat := [0, 250, 150, 100, 60, 40, 30].getD rate 0

/-- IO_CTO.cto_eff follows cto_us and the links that are up (R566). -/
def updateCto (n : Nat) (s : State) : State :=
  let replay := (List.range 4).foldl (fun m k => if linkUp s n k then max m (s.regF .IO_LINK 47 32 n k) else m) 0
  s.setRegF .IO_CTO 51 32 (max (min 50000 (s.regF .IO_CTO 19 0 n)) (4 * replay)) n

/-- Whether the island of a stop runs. -/
def islandUp (s : State) (n : Nat) : Bool := decide (n < 12) && s.regF .NI_PORT 2 0 (ioStop n) != 3

/-- Whether the SerDes domains are up. -/
def serdesUp (s : State) : Bool := domainUp s 5 && domainUp s 6

/-- A record of a stop's link (unit 0x40) or another of its units. -/
def ioRecord (n : Nat) (cls : ErrClass) (unit type link code : Nat) (addr : Option W64) (s : State) : State :=
  record (.io n) { mkRec cls (ioStop n) unit type (link % 4 * 2 ^ 8 + code) with addr } s

/-- The answer to a request that a tag stands for. -/
def tagAnswer (n : Nat) (p : Packet) (status : Nat) (d : Line) (poison : Bool) (s : State) : State :=
  let op : Op := match p.op with | .RdDev => .DatRd | _ => .Cmp
  send { mkPacket op (ioStop n) p.src p.tid p.addr p.key (.io n) p.from_ with status, data := d, poison } s

/-- A link goes down (R535): outstanding non-posted requests get status 4, queued posted writes are discarded and their number
logged. -/
def linkDown (n k : Nat) (s : State) : State :=
  if !linkUp s n k then s
  else
    let s := (s.setRegF .IO_LINK 63 63 0 n k).bumpReg .IO_LINK 31 16 n k
    let mine := (s.ioAt n).tags.filter fun e => e.2.link == k
    let lost := ((s.ioAt n).egress.filter fun t => t.link == k && (t.kind == .memWrite || t.kind == .message)).length
    let s := s.modIo n fun x => { x with
      tags := x.tags.filter fun e => !(e.2.link == k && e.2.req.isSome)
      egress := x.egress.filter fun t => t.link != k }
    let s := mine.foldl (fun s e => match e.2.req with
      | some p => tagAnswer n p 4 0 true s
      | none => s) s
    let s := if lost = 0 then s
      else record (.io n) { mkRec .uncorrected (ioStop n) 0x40 0x05 (k * 2 ^ 8) with misc := some (w64 lost) } s
    updateCto n s

/-- Every link of a stop goes down. -/
def linksDown (n : Nat) (s : State) : State := (List.range 4).foldl (fun s k => linkDown n k s) s

/-- The registers of an I/O stop that its island holds: all but IO_CFG. -/
def islandReg (n : Nat) (r : RegName) (u : Nat) : Bool :=
  match r.place.block with
  | .io => u == n && r != .IO_CFG
  | .ep => u == n
  | .io0 => n == 0
  | _ => false

/-- The registers of a stop's island as a reset leaves them: by their Warm columns. -/
def resetIsland (n : Nat) (s : State) : State :=
  { s with crs := s.crs.filterMap fun e => match locate e.1 with
    | some (r, u, i) =>
      if islandReg n r u then
        (let w := resetWord .warm false r u i e.2
         if w = coldAt r u i then none else some (e.1, w))
      else some e
    | none => some e }

/-- The I/O island enters reset: links down, the port as R257 states, and IO_CFG comes into force (R534, R537). -/
def islandReset (n : Nat) (s : State) : State :=
  let stop := ioStop n
  let s := portReset stop (linksDown n s)
  let s := (s.fab.net.filter fun p => p.dst == stop && decide (p.to_ = .io n)).foldl (fun s _ => s.bumpReg .NI_PORT 31 16 stop) s
  let s := s.modFab fun f => { f with
    net := f.net.filter fun p => !(p.dst == stop && decide (p.to_ = .io n))
    outs := f.outs.filter fun o => !(o.stop == stop && decide (o.who = .io n)) }
  (resetIsland n s).modIo n fun x => { IoStop.cold with cfg := s.reg .IO_CFG n, perstIn := x.perstIn }

/-- Whether a value of IO_CFG breaks Table 13-1 or would give pers 3 to a fifth stop (R534). -/
def badIoCfg (s : State) (n : Nat) (v : W64) : Bool :=
  let p := fld v 3 0
  let b := fld v 11 8
  let strap := bit (s.reg .STRAP_STATUS) (n + 1)
  decide (4 < p) || (decide (n < 2) && strap && p != 0 && p != 4) || (decide (n < 2) && !strap && p == 4) || ((p == 1 || p == 2) && decide (4 < b)) || ((p == 3 || p == 4) && b != 0) || (p == 4 && decide (1 < n)) ||
    (p == 3 && decide (4 ≤ ((List.range 12).filter fun m => m != n && s.regF .IO_CFG 3 0 m == 3).length))

/-- A write of IO_CFG (R534). -/
def writeIoCfg (r : Req) (n : Nat) (v : W64) (s : State) : State :=
  if r ≠ .cx 0 ∨ bit (s.reg .IO_CFG n) 63 ∨ badIoCfg s n v then refuse (.fabric (ioStop n)) (ioStop n) r s
  else s.writeReg .IO_CFG v n

/-- IO_CFG_WRITE (R534). -/
def execIoCfgWrite (r : Req) (io : Nat) (v : W64) (s : State) : Host.Outcome State Fault Refusal :=
  answer s (if io < 12 then writeIoCfg r io v s else s)

/-- A write of IO_RST (R537). While an endpoint's PERST_N input is low the island stays in reset (R685). -/
def writeIoRst (r : Req) (n : Nat) (v : W64) (s : State) : State :=
  if bit v 0 && (isF r || r == .cx 0 || r == .cx 2) then
    (let s := islandReset n s
     if persOf s n = 4 ∧ !(s.ioAt n).perstIn then s.setRegF .IO_RST 1 1 1 n else portRelease (ioStop n) s)
  else s

/-- IO_RST_RESET (R537). -/
def execIoRstReset (r : Req) (io : Nat) (s : State) : Host.Outcome State Fault Refusal :=
  answer s (if io < 12 then writeIoRst r io 1 s else s)

/-- LINK_UP (R533): a PCIe or CXL link of the stop's bifurcation trains, within its rate and width. -/
def execLinkUp (io link : Nat) (rate : BitVec 3) (width : BitVec 4) (cxl flit : Bool) (s : State) :
    Host.Outcome State Fault Refusal :=
  let r := rate.toNat
  answer s (if !islandUp s io || !serdesUp s || linkUp s io link || decide (linkCount s io ≤ link) || persOf s io == 3 ||
      decide (r = 0) || decide (maxRate s io < r) || decide (linkWidth s io link < width.toNat) || (cxl && persOf s io != 2) ||
      (r == 6 && !flit) then s
    else
      let keep := s.regF .IO_LINK 31 16 io link
      updateCto io (s.setReg .IO_LINK (w64 (2 ^ 63 + r * 2 ^ 60 + width.toNat * 2 ^ 56 + cxl.toNat * 2 ^ 55 + flit.toNat * 2 ^ 54 +
        replayUs r * 2 ^ 32 + keep * 2 ^ 16)) io link))

/-- LINK_DOWN (R535). -/
def execLinkDown (io link : Nat) (s : State) : Host.Outcome State Fault Refusal :=
  answer s (if io < 12 then linkDown io link s else s)

/-! ## Socket Links (13.11) -/

/-- What a stop of a Socket Link group trains at with a partner: version, features, and non-coherent when no version is common
(R569, R570). -/
def socketTerms (pLo pHi : Byte) (pFeat : BitVec 4) : Nat × Nat × Bool :=
  let hi := min 0x31 pHi.toNat
  if max 0x20 pLo.toNat ≤ hi then (hi, pFeat.toNat, false) else (0, 0, true)

/-- The stop whose terms a group runs: the lowest that is up. -/
def socketFirst (s : State) (n : Nat) : Option Nat :=
  (List.range 12).find? fun m => m != n && persOf s m == 3 && linkUp s m 0

/-- Whether a partner can train at the version and features a group runs (R571). -/
def socketFits (s : State) (m : Nat) (pLo pHi : Byte) (pFeat : BitVec 4) : Bool :=
  let v := s.regF .IO_SL 31 24 m
  let f := s.regF .IO_SL 3 0 m
  if bit (s.reg .IO_SL m) 48 then (socketTerms pLo pHi pFeat).2.2
  else decide (pLo.toNat ≤ v) && decide (v ≤ pHi.toNat) && f &&& pFeat.toNat == f

/-- SOCKET_LINK_TRAINED (R569 to R571): the first stop sets the group's version and features; a later one that cannot train at them
stays down, and that is logged. -/
def execSocketLinkTrained (io : Nat) (pLo pHi : Byte) (pFeat : BitVec 4) (s : State) : Host.Outcome State Fault Refusal :=
  let up := fun (ver feat : Nat) (nc : Bool) (s : State) =>
    let s := s.setReg .IO_SL (w64 (nc.toNat * 2 ^ 48 + pHi.toNat * 2 ^ 40 + pLo.toNat * 2 ^ 32 + ver * 2 ^ 24 + feat)) io
    let r := maxRate s io
    updateCto io (s.setReg .IO_LINK (w64 (2 ^ 63 + r * 2 ^ 60 + 4 * 2 ^ 56 + (r == 6).toNat * 2 ^ 54 + replayUs r * 2 ^ 32 +
      s.regF .IO_LINK 31 16 io 0 * 2 ^ 16)) io 0)
  answer s (if !islandUp s io || !serdesUp s || persOf s io != 3 || linkUp s io 0 then s
    else match socketFirst s io with
      | none => (let t := socketTerms pLo pHi pFeat; up t.1 t.2.1 t.2.2 s)
      | some m =>
        if socketFits s m pLo pHi pFeat then up (s.regF .IO_SL 31 24 m) (s.regF .IO_SL 3 0 m) (bit (s.reg .IO_SL m) 48) s
        else ioRecord io .uncorrected 0x43 0x08 0 0 none s)

/-- FINISH_FORWARDING (R569, Table 13-22). -/
def execFinishForwarding (io : Nat) (s : State) : Host.Outcome State Fault Refusal :=
  answer s (if decide (io < 12) && persOf s io == 3 && linkUp s io 0 && bit (s.reg .IO_SL io) 2 then startFinish s else s)

/-! ## Requests that leave on a link (R535, R536, R564) -/

/-- The link of a stop that an address reached it for, and whether it lies in an ECAM aperture, by the requester's map. -/
def outLink (s : State) (p : Packet) : Nat × Bool :=
  match decodeAddr s p.src p.addr with
  | .aperture i => (fld (samSeen s p.src .SAM_ACFG i) 9 8, apertureKind s p.src i == 3)
  | _ => (0, false)

/-- The tag a stop gives its next non-posted request; none while all 1,024 are in use (R536). -/
def freeTag (s : State) (n : Nat) : Option Nat :=
  let used := (s.ioAt n).tags
  if 1024 ≤ used.length then none
  else (List.range (used.length + 1)).find? fun t => (NMap.find? used t).isNone

/-- A TLP leaves on a link; one for a link that is down is lost. -/
def pushTlp (n : Nat) (t : OutTlp) (s : State) : State :=
  if !linkUp s n t.link then s
  else
    let kase : List Nat := match t.kind with | .memWrite | .message => [2] | .memRead | .config => [3] | .completion => []
    let s := s.modIo n fun x => { x with egress := x.egress ++ [t] }
    if kase = [] then s else uncEvent (.io n) 0x300 kase 1 0 s

/-- The runs of consecutive bytes a mask selects, as first lane and length. -/
def maskRuns (m : W64) : List (Nat × Nat) :=
  (List.range 64).foldl (fun acc i =>
    if !bit m i then acc
    else match acc.reverse with
      | (a, l) :: rest => if a + l = i then (rest.reverse ++ [(a, l + 1)]) else acc ++ [(i, 1)]
      | [] => [(i, 1)]) []

/-- A device read or a configuration access takes a tag and leaves as a non-posted request. -/
def sendNonPosted (n : Nat) (p : Packet) (tag : Nat) (s : State) : State :=
  let l := outLink s p
  let s := s.modIo n fun x => { x with tags := NMap.put x.tags tag ⟨l.1, some p⟩ }
  let bytes := if p.op = .RdDev then [] else ((lineBytes p.data).drop (p.addr % 64)).take p.arg
  pushTlp n ⟨l.1, if l.2 then .config else .memRead, 0, tag, w64 p.addr, p.arg, bytes, .sc, p.poison⟩ s

/-- A store to a kind 0 aperture leaves as posted writes, one for each run of bytes, and is answered. -/
def sendPosted (n : Nat) (p : Packet) (s : State) : State :=
  let l := outLink s p
  let s := (maskRuns p.mask).foldl (fun s r =>
    pushTlp n ⟨l.1, .memWrite, 0, 0, w64 (p.addr / 64 * 64 + r.1), r.2, ((lineBytes p.data).drop r.1).take r.2, .sc, p.poison⟩ s) s
  tagAnswer n p 0 0 false s

/-- A request of the fabric reaches an I/O stop. -/
def ioRequest (n : Nat) (p : Packet) (s : State) : State :=
  let l := outLink s p
  if !linkUp s n l.1 then tagAnswer n p 4 0 true s
  else if p.op = .RdDev ∨ l.2 then
    (match freeTag s n with
     | some t => sendNonPosted n p t s
     | none => send p s)
  else sendPosted n p s

/-- Whether a packet is a device access for an I/O stop that has a tag for it where it needs one. -/
def ioTakes (s : State) (n : Nat) (p : Packet) : Bool :=
  decide (p.to_ = .io n) && (p.op == .WrPtl && !(outLink s p).2 || (freeTag s n).isSome || !linkUp s n (outLink s p).1)

/-- RDDEV (R64, R535, R536, R564): a device read reaches its I/O stop and leaves on the link. -/
def execRddev (src stop addr size : Nat) (s : State) : Host.Outcome State Fault Refusal :=
  answer s (match stopKind stop with
    | some (2, n) =>
      if (stopKind src).isNone then s
      else arriveOrNew (fun p => p.op == .RdDev && p.src == src && p.addr == addr && p.arg == size && ioTakes s n p)
        (request .RdDev (unitAt src) (.io n) src stop addr 0 fun p => { p with arg := size })
        (ioRequest n) s
    | _ => s)

/-- WRPTL (R189, R229, R564): a partial write reaches the home of its line, or the I/O stop of its aperture. -/
def execWrptl (src line key : Nat) (data : Line) (mask : W64) (s : State) : Host.Outcome State Fault Refusal :=
  let toIo := fun (p : Packet) => p.op == .WrPtl && p.src == src && p.addr / 64 == line && p.key == key && p.data == data &&
    p.mask == mask && (match p.to_ with | .io n => ioTakes s n p | _ => false)
  answer s (match s.fab.net.find? toIo with
    | some p =>
      (match p.to_ with
       | .io n => arriveReq toIo (ioRequest n) s
       | _ => s)
    | none => homeOp .WrPtl src line key (fun p => p.data == data && p.mask == mask) (fun p => { p with data, mask }) s)

/-- COMPLETION_RECEIVED (R562, R565): a completion for an outstanding tag goes to its requester; UR and CA become status 4, and a
configuration request answered RRS is sent again. -/
def execCompletionReceived (io tag : Nat) (status : CplStatus) (data : List Byte) (s : State) : Host.Outcome State Fault Refusal :=
  answer s (if !islandUp s io then s
    else match NMap.find? (s.ioAt io).tags tag with
      | none | some ⟨_, none⟩ => ioRecord io .uncorrected 0x40 0x08 0 16 none s
      | some ⟨k, some p⟩ =>
        if !linkUp s io k then s
        else
          let free := s.modIo io fun x => { x with tags := x.tags.filter fun e => e.1 != tag }
          match status with
          | .sc =>
            if p.op = .RdDev ∧ data.length ≠ p.arg then ioRecord io .uncorrected 0x40 0x08 k 18 none s
            else tagAnswer io p 0 (patchLine 0 (data.zipIdx.map fun e => (p.addr % 64 + e.2, e.1))) false free
          | .rrs =>
            if (outLink s p).2 then sendNonPosted io p tag s
            else tagAnswer io p 4 0 true (ioRecord io .uncorrected 0x40 0x08 k 20 none free)
          | .ur => tagAnswer io p 4 0 true (ioRecord io .uncorrected 0x40 0x08 k 20 none free)
          | .ca => tagAnswer io p 4 0 true (ioRecord io .uncorrected 0x40 0x08 k 15 none free))

/-- COMPLETION_TIMEOUT (R567): status 4, and the tag is held. -/
def execCompletionTimeout (io tag : Nat) (s : State) : Host.Outcome State Fault Refusal :=
  answer s (if !islandUp s io then s
    else match NMap.find? (s.ioAt io).tags tag with
      | some ⟨k, some p⟩ =>
        tagAnswer io p 4 0 true (ioRecord io .uncorrected 0x40 0x06 k 14 none
          (s.modIo io fun x => { x with tags := NMap.put x.tags tag ⟨k, none⟩ }))
      | _ => s)

/-- TAG_HOLD_EXPIRY (R567). -/
def execTagHoldExpiry (io tag : Nat) (s : State) : Host.Outcome State Fault Refusal :=
  answer s (if 12 ≤ io then s
    else match NMap.find? (s.ioAt io).tags tag with
      | some ⟨_, none⟩ => s.modIo io fun x => { x with tags := x.tags.filter fun e => e.1 != tag }
      | _ => s)

/-! ## The IOTU (13.4) -/

/-- Why an inbound access is not performed: the cause of IOTU_FAULT, and whether a walk read poison. -/
structure IoFault where
  cause : Nat
  poison : Bool
  deriving DecidableEq, Repr

/-- The context entry a requester ID or ring selector names: the one the IOTU has read before, or the one in memory (R541 to
R543). -/
def ctxEntry (s : State) (n rid : Nat) : Except IoFault CtxEnt :=
  if !bit (s.reg .IOTU_ROOT n) 0 then .error ⟨0x40, false⟩
  else match (s.ioAt n).ctxs.find? fun e => e.rid == rid with
    | some e => .ok e
    | none =>
      let b := peek s (s.regF .IOTU_ROOT 51 12 n * 4096 + rid / 256 * 8) 8 0
      let bus := w64 b.1
      if b.2 then .error ⟨0x16, true⟩
      else if !bit bus 0 then .error ⟨0x40, false⟩
      else
        let a := fld bus 51 12 * 4096 + rid % 256 * 32
        let e := (List.range 4).map fun i => peek s (a + 8 * i) 8 0
        let w := e.map fun x => w64 x.1
        if e.any Prod.snd then .error ⟨0x16, true⟩
        else if !bit (w.getD 3 0) 11 || (bit (w.getD 0 0) 63 && !pageIn s a 3) then .error ⟨0x40, false⟩
        else .ok ⟨rid, a / 4096, w⟩

/-- The IOTU keeps an entry until an invalidation (13.4). -/
def keepCtx (n : Nat) (e : CtxEnt) (s : State) : State :=
  if (s.ioAt n).ctxs.contains e then s else s.modIo n fun x => { x with ctxs := x.ctxs ++ [e] }

/-- The context of an inbound access (R541): level U under the entry's stages, roots, key ID and ownership. -/
def ioCtx (n : Nat) (e : CtxEnt) : XCtx :=
  let x := e.words.getD 0 0
  let ctx := fld x 31 16
  { regime := if bit x 63 then .part ctx else .guest ctx, asid := fld x 15 0, part := if bit x 63 then some ctx else none,
    own := false, guestOn := bit x 57, guestLvl5 := bit x 56, guestRoot := fld (e.words.getD 1 0) 51 12 * 4096,
    hostOn := bit x 59, hostLvl5 := bit x 58, hostRoot := fld (e.words.getD 2 0) 51 12 * 4096, key := fld x 51 40, user := true,
    devSpace := false, stop := ioStop n }

/-- The translation of one inbound address: with the key rule of R342, and nothing in or above the register space (R584). -/
def ioXlate (s : State) (n : Nat) (e : CtxEnt) (va : Nat) (kind : Access) : Except IoFault TlbEnt :=
  let c := ioCtx n e
  let r : Except XFault TlbEnt := match (s.ioAt n).tlb.find? (fun t => t.covers c va) with
    | some t => (match tlbFault t c va kind with | some f => .error f | none => .ok t)
    | none => translate s c va kind
  match r with
  | .error f => .error ⟨f.code, f.code == 0x16⟩
  | .ok t =>
    if t.key ≠ 0 ∧ t.key ≠ c.key then .error ⟨0x15, false⟩
    else if crsBase ≤ t.pa + va % 2 ^ t.size then .error ⟨0x11, false⟩
    else .ok t

/-- The IOTU keeps a translation until an invalidation reaches it (R546). -/
def ioKeep (n : Nat) (e : CtxEnt) (t : TlbEnt) (s : State) : State :=
  let c := ioCtx n e
  if (c.guestOn || c.hostOn) && !(s.ioAt n).tlb.contains t then s.modIo n fun x => { x with tlb := x.tlb ++ [t] } else s

/-- A fault goes into IOTU_FAULT and IOTU_RID when they hold none, is counted, and logged (R543, Table 13-11). -/
def iotuFault (n rid va : Nat) (f : IoFault) (link : Nat) (s : State) : State :=
  let v := s.reg .IOTU_FAULT n
  let s := if bit v 63 then s.bumpReg .IOTU_FAULT 11 0 n
    else (s.setReg .IOTU_FAULT (w64 (2 ^ 63 + f.cause % 128 * 2 ^ 56 + va / 4096 % 2 ^ 40 * 2 ^ 12 + 1)) n).setReg .IOTU_RID
      (w64 (rid % 65536)) n
  ioRecord n (if f.poison then .deferred else .uncorrected) 0x41 (if f.poison then 0x04 else 0x08) link 0 (some (w64 (va % 2 ^ 52))) s

/-- The pieces of an access that lie in one page each: address and length. -/
def pagePieces : Nat → Nat → Nat → List (Nat × Nat)
  | 0, _, _ => []
  | fuel + 1, va, len =>
    if len = 0 then []
    else
      let k := min len (4096 - va % 4096)
      (va, k) :: pagePieces fuel (va + k) (len - k)

/-- Every piece of an access with the physical address and key ID it goes to, or the first fault with its address; the entries are
kept. -/
def ioPieces (n : Nat) (e : CtxEnt) (kind : Access) : List (Nat × Nat) → State → Except (IoFault × Nat) (List (Nat × Nat × Nat) × State)
  | [], s => .ok ([], s)
  | (va, k) :: ps, s =>
    match ioXlate s n e va kind with
    | .error f => .error (f, va)
    | .ok t =>
      match ioPieces n e kind ps (ioKeep n e t s) with
      | .error f => .error f
      | .ok (r, s) => .ok ((t.pa + va % 2 ^ t.size, k, t.key) :: r, s)

/-- Where an inbound access to a physical address goes. -/
inductive IoTarget where
  | memory | device (m : Nat) | nowhere
  deriving DecidableEq, Repr

/-- Memory, also behind a CXL or socket aperture, a device behind another aperture, or nothing. -/
def ioTarget (s : State) (n pa : Nat) : IoTarget :=
  match decodeAddr s (ioStop n) pa with
  | .mem _ _ _ => .memory
  | .aperture i =>
    if apertureKind s (ioStop n) i = 1 ∨ apertureKind s (ioStop n) i = 2 then .memory
    else .device (fld (samSeen s (ioStop n) .SAM_ACFG i) 7 4)
  | _ => .nowhere

/-- Lines that take poisoned bytes are poisoned. -/
def poisonAt (pa len key : Nat) (s : State) : State :=
  (List.range ((pa + len + 63) / 64 - pa / 64)).foldl (fun s i =>
    let l := pa / 64 + i
    let d := (peekLine s l key).1
    whole l (fun s => memStore l key d true (invalidateAll l s)) s) s

/-- A whole line goes into its home's L3 (R228, IO_CFG.walloc). -/
def allocLine (line key : Nat) (d : Line) (poison : Bool) (s : State) : State :=
  match homeTile s 0x02 line with
  | none => s
  | some t => whole line (fun s => fillL3 t line key d poison true true (invalidateAll line s)) s

/-- The whole lines of a range, allocated where walloc says so. -/
def allocWhole (n pa len key : Nat) (s : State) : State :=
  if !bit (s.reg .IO_CFG n) 25 then s
  else (List.range (len / 64 + 1)).foldl (fun s i =>
    let l := (pa + 63) / 64 + i
    if (l + 1) * 64 ≤ pa + len then (let d := peekLine s l key; allocLine l key d.1 d.2 s) else s) s

/-- Bytes are written at a physical address: memory, or another stop's device as posted writes of a line at most. -/
def ioPut (n pa key : Nat) (bs : List Byte) (poison : Bool) (s : State) : State :=
  match ioTarget s n pa with
  | .memory =>
    let s := poke pa key bs s
    let s := if poison then poisonAt pa bs.length key s else s
    allocWhole n pa bs.length key s
  | .device m =>
    if key ≠ 0 then logKeyRefused (ioStop n) pa key s
    else (List.range ((pa + bs.length + 63) / 64 - pa / 64)).foldl (fun s i =>
      let l := pa / 64 + i
      let part := (bs.zipIdx.filter fun e => (pa + e.2) / 64 == l).map fun e => ((pa + e.2) % 64, e.1)
      sendPtl (.io n) (.io m) (ioStop n) (ioStop m) (max pa (l * 64)) 0 part s) s
  | .nowhere => logAbort (ioStop n) pa s

/-- The bytes of every piece, in order. -/
def ioPutAll (n : Nat) (poison : Bool) : List (Nat × Nat × Nat) → List Byte → State → State
  | [], _, s => s
  | (pa, k, key) :: ps, bs, s => ioPutAll n poison ps (bs.drop k) (ioPut n pa key (bs.take k) poison s)

/-- A DMA write under a requester ID or ring selector: all of it, or a fault and nothing. -/
def dmaWrite (n rid va : Nat) (bs : List Byte) (poison : Bool) (s : State) : Except (IoFault × Nat) State :=
  match ctxEntry s n rid with
  | .error f => .error (f, va)
  | .ok e =>
    match ioPieces n e .write (pagePieces (bs.length / 4096 + 2) va bs.length) (keepCtx n e s) with
    | .error f => .error f
    | .ok (ps, s) => .ok (ioPutAll n poison ps bs s)

/-- A DMA read: bytes and poison. What decodes to nothing, or to a device of another stop, is not read. -/
def dmaRead (n rid va len : Nat) (s : State) : Except (IoFault × Nat) (List Byte × Bool × Bool × State) :=
  match ctxEntry s n rid with
  | .error f => .error (f, va)
  | .ok e =>
    match ioPieces n e .read (pagePieces (len / 4096 + 2) va len) (keepCtx n e s) with
    | .error f => .error f
    | .ok (ps, s) =>
      match ps.find? fun p => ioTarget s n p.1 != .memory with
      | some p => .ok ([], false, true, if ioTarget s n p.1 = .nowhere then logAbort (ioStop n) p.1 s else s)
      | none =>
        let r := ps.map fun p => peekBytes s p.1 p.2.1 p.2.2
        .ok (r.flatMap Prod.fst, r.any Prod.snd, false, s)

/-! ## Interrupt remapping (R544, R584) -/

/-- The remap entry of an index in a context's table, delivered to a core, or the fault. -/
def remapDeliver (n : Nat) (e : CtxEnt) (idx : Nat) (s : State) : Except IoFault State :=
  let w3 := e.words.getD 3 0
  if 2 ^ min 12 (fld w3 3 0) ≤ idx then .error ⟨0x41, false⟩
  else
    let r := peek s (fld w3 51 12 * 4096 + idx * 16) 8 0
    let v := w64 r.1
    let w0 := e.words.getD 0 0
    if r.2 then .error ⟨0x16, true⟩
    else if !bit v 63 then .error ⟨0x41, false⟩
    else
      let ctl : Controller := if bit w0 63 then .sealedK (fld w0 31 16) else if bit v 62 then .openH else .openK
      .ok (deliver (ioStop n) (fld v 23 16) ctl (fld v 7 0) s)

/-- An interrupt by index under a requester ID: delivered, or the fault logged. -/
def remapInterrupt (n rid va idx link : Nat) (s : State) : State :=
  match ctxEntry s n rid with
  | .error f => iotuFault n rid va f link s
  | .ok e =>
    match remapDeliver n e idx (keepCtx n e s) with
    | .error f => iotuFault n rid va f link s
    | .ok s => s

/-! ## Inbound TLPs (13.4, 13.8, 13.9) -/

/-- Whether a root port takes a TLP now: its link is up, its island runs, and Finish has not stopped its injection (R465). -/
def portTakes (s : State) (n : Nat) (t : Tlp) : Bool :=
  islandUp s n && linkUp s n t.link && persOf s n != 3 && !finishing s

/-- A completion goes back to the device. -/
def complete (n : Nat) (t : Tlp) (st : CplStatus) (bs : List Byte) (ep : Bool) (s : State) : State :=
  pushTlp n ⟨t.link, .completion, t.rid.toNat, t.tag.toNat, t.addr, bs.length, bs, st, ep⟩ s

/-- The unit code of a stop's links: a root port's, or the endpoint's. -/
def linkUnit (s : State) (n : Nat) : Nat := if persOf s n = 4 then 0x42 else 0x40

/-- A posted write that has arrived whole: an interrupt message, or a DMA write; a partner's violation is logged (Table 13-19). -/
def inboundWrite (n : Nat) (t : Tlp) (data : List Byte) (s : State) : State :=
  let bad := fun (code : Nat) => ioRecord n .uncorrected (linkUnit s n) 0x08 t.link code none s
  if t.malformed ∨ t.len ≠ data.length ∨ 512 < data.length then bad 18
  else if t.unsupported ∨ persOf s n = 4 then bad 20
  else
    let s := uncEvent (.io n) 0x300 [0] 1 0 s
    let va := t.addr.toNat
    let base := s.regF .IOTU_MSI 51 12 n
    if va / 4096 = base then
      (if va = base * 4096 ∧ data.length = 4 then remapInterrupt n t.rid.toNat va (leNat (data.take 2)) t.link s
       else iotuFault n t.rid.toNat va ⟨0x41, false⟩ t.link s)
    else
      let s := if t.ep then ioRecord n .deferred 0x40 0x08 t.link 12 none s else s
      match dmaWrite n t.rid.toNat va data t.ep s with
      | .ok s => s
      | .error (f, a) => iotuFault n t.rid.toNat a f t.link s

/-- INBOUND_POSTED_WRITE (R541 to R543, R562, R565). -/
def execInboundPostedWrite (io : Nat) (t : Tlp) (data : List Byte) (s : State) : Host.Outcome State Fault Refusal :=
  answer s (if portTakes s io t then inboundWrite io t data s else s)

/-- INTERRUPT_MESSAGE (R544, R584). -/
def execInterruptMessage (io : Nat) (t : Tlp) (data : W32) (s : State) : Host.Outcome State Fault Refusal :=
  answer s (if portTakes s io t then inboundWrite io t (leBytes 4 data.toNat) s else s)

/-- A read that a root port performs, or its refusal. -/
def inboundRead (n : Nat) (t : Tlp) (s : State) : State :=
  let ur := fun (code : Nat) (s : State) => complete n t .ur [] false (ioRecord n .uncorrected (linkUnit s n) 0x08 t.link code none s)
  if t.malformed ∨ 4096 < t.len then ioRecord n .uncorrected (linkUnit s n) 0x08 t.link 18 none s
  else if t.unsupported ∨ persOf s n = 4 then ur 20 s
  else
    let s := uncEvent (.io n) 0x300 [1] 1 0 s
    match dmaRead n t.rid.toNat t.addr.toNat t.len s with
    | .error (f, a) => complete n t .ur [] false (iotuFault n t.rid.toNat a f t.link s)
    | .ok (_, _, true, s) => ur 20 s
    | .ok (bs, p, false, s) =>
      complete n t .sc bs p (if p then ioRecord n .deferred 0x40 0x04 t.link 0 (some (w64 (t.addr.toNat % 2 ^ 52))) s else s)

/-- INBOUND_READ_REQUEST (R541 to R543, R562). -/
def execInboundReadRequest (io : Nat) (t : Tlp) (s : State) : Host.Outcome State Fault Refusal :=
  answer s (if portTakes s io t then inboundRead io t s else s)

/-- What an atomic TLP writes: FetchAdd, Swap, or the swap value where the compare value matches. -/
def tlpAtom (op : AtomOp) (len : Nat) (old operand compare : Nat) : Nat :=
  let m := 2 ^ (8 * len)
  match op with
  | .fetchAdd => (old + operand) % m
  | .swap => operand % m
  | .cas => if old = compare % m then operand % m else old

/-- Whether an atomic TLP has a size Table 13-6 supports, aligned to it. -/
def atomSize (op : AtomOp) (t : Tlp) : Bool :=
  (t.len == 4 || t.len == 8 || (t.len == 16 && op == .cas)) && t.addr.toNat % t.len == 0

/-- An atomic operation on normal memory; UR on anything else (Table 13-6). -/
def inboundAtomic (n : Nat) (t : Tlp) (op : AtomOp) (operand compare : BitVec 128) (s : State) : State :=
  let ur := fun (s : State) => complete n t .ur [] false (ioRecord n .uncorrected (linkUnit s n) 0x08 t.link 20 none s)
  if t.malformed ∨ !atomSize op t then ioRecord n .uncorrected (linkUnit s n) 0x08 t.link 18 none s
  else if t.unsupported ∨ persOf s n ≠ 1 ∧ persOf s n ≠ 2 then ur s
  else
    let s := uncEvent (.io n) 0x300 [1] 1 0 s
    let va := t.addr.toNat
    match dmaRead n t.rid.toNat va t.len s with
    | .error (f, a) => complete n t .ur [] false (iotuFault n t.rid.toNat a f t.link s)
    | .ok (_, _, true, s) => ur s
    | .ok (bs, p, false, s) =>
      match dmaWrite n t.rid.toNat va (leBytes t.len (tlpAtom op t.len (leNat bs) operand.toNat compare.toNat)) false s with
      | .error (f, a) => complete n t .ur [] false (iotuFault n t.rid.toNat a f t.link s)
      | .ok s =>
        let s := if p then ioRecord n .deferred 0x40 0x04 t.link 0 (some (w64 (va % 2 ^ 52))) s else s
        complete n t .sc bs p s

/-- INBOUND_ATOMIC (R538, Table 13-6). -/
def execInboundAtomic (io : Nat) (t : Tlp) (op : AtomOp) (operand compare : BitVec 128) (s : State) :
    Host.Outcome State Fault Refusal :=
  answer s (if portTakes s io t then inboundAtomic io t op operand compare s else s)

end Sys2Proof.Machine
end

