-- ==== Sys2Proof/Machine/Endpoint.lean ====
section
/-! DEFINITION. The PCIe endpoint: functions, mailboxes, DMA rings, MSI-X and function resets (13.5 to 13.7). Function 0 is the PF
and function v is VF v. -/

namespace Sys2Proof.Machine

/-! ## Functions (R548 to R550) -/

/-- The stop whose link presents the functions, where it runs pers 4 (R548). -/
def activeEp (s : State) : Nat := s.regF .EP_CTL 16 16 0

/-- TotalVFs. -/
def totalVfs (s : State) : Nat := min 1024 (s.regF .EP_CTL 10 0 0)

/-- Whether the host reaches the functions: the active stop is an endpoint with its link up. -/
def epUp (s : State) : Bool := persOf s (activeEp s) == 4 && islandUp s (activeEp s) && linkUp s (activeEp s) 0

/-- Whether a function is there: the PF, or a VF while VF Enable is set. -/
def fnPresent (s : State) (fn : Nat) : Bool := fn == 0 || (decide (fn ≤ totalVfs s) && (s.fnAt 0).vfe)

/-- The vectors of a function (R556). -/
def fnVectors (fn : Nat) : Nat := if fn = 0 then 2048 else 64

/-- A record of the endpoint (unit 0x42): AER bit 20 is Unsupported Request. -/
def epRecord (code : Nat) (s : State) : State := ioRecord (activeEp s) .uncorrected 0x42 0x08 0 code none s

/-! ## EP_CTL and EP_VF (R549, R553) -/

/-- EP_CTL.err. -/
def epErr (s : State) : State := s.setRegF .EP_CTL 32 32 1 0

/-- Whether every function has both enables clear. -/
def allQuiet (s : State) : Bool := s.io.fns.all fun e => !e.2.mse && !e.2.bme

/-- A write of EP_CTL in IO0 (R549): level F and CX0; a change of active is refused while a function is enabled. -/
def writeEpCtl (r : Req) (v : W64) (s : State) : State :=
  if !(isF r || r == .cx 0) then s
  else
    let old := s.reg .EP_CTL 0
    let s := if bit v 32 then s.setRegF .EP_CTL 32 32 0 0 else s
    let s := if bit old 63 then s else (s.setRegF .EP_CTL 10 0 (fld v 10 0) 0).setRegF .EP_CTL 63 63 (fld v 63 63) 0
    if bit v 16 = bit old 16 then s
    else if allQuiet s then s.setRegF .EP_CTL 16 16 (fld v 16 16) 0
    else epErr s

/-- EP_ACTIVE_CHANGE (R549). -/
def execEpActiveChange (r : Req) (act : Bool) (s : State) : Host.Outcome State Fault Refusal :=
  answer s (writeEpCtl r (setBit (s.reg .EP_CTL 0 &&& ~~~0x100000000#64) 16 act) s)

/-- A write of EP_VF[v] (R553): levels H and F, while the VF's Memory Space Enable is 0. -/
def writeEpVf (r : Req) (vf : Nat) (word1 : Bool) (v : W64) (s : State) : State :=
  if !isHF r || vf == 0 || decide (1024 < vf) then s
  else if (s.fnAt vf).mse then epErr s
  else if word1 then s.writeReg .EP_VF1 v 0 vf else s.writeReg .EP_VF0 v 0 vf

/-- EP_VF_WRITE (R553). -/
def execEpVfWrite (r : Req) (vf : Nat) (word1 : Bool) (v : W64) (s : State) : Host.Outcome State Fault Refusal :=
  answer s (writeEpVf r vf word1 v s)

/-! ## Host accesses of a VF's pages (R550 to R552) -/

/-- Whether a host memory request reaches a VF: it is answered UR and logged where the VF is absent or has Memory Space Enable 0
(Table 13-19); a VF whose entry is not valid ignores it. -/
def onVf (vf : Nat) (f : State → State) (s : State) : State :=
  if !epUp s || finishing s then s
  else if vf = 0 ∨ !fnPresent s vf ∨ !(s.fnAt vf).mse ∨ (s.fnAt vf).flr then epRecord 20 s
  else if bit (s.reg .EP_VF0 0 vf) 63 then f s
  else s

/-- A doorbell write reaches the home engine of a queue. -/
def ringDoorbell (q off : Nat) (v : W64) (s : State) : State :=
  if off = 0 then (if queueLive s q then s.modQueue q fun x => { x with reading := true } else s)
  else if off = 8 then (if swHalted s then s else releaseHandle q v s)
  else s

/-- VF_DOORBELL_WRITE (R551). -/
def execVfDoorbellWrite (vf : Nat) (off : BitVec 12) (v : W64) (s : State) : Host.Outcome State Fault Refusal :=
  answer s (onVf vf (fun s => ringDoorbell (s.regF .EP_VF0 41 32 0 vf) off.toNat v s) s)

/-- MAILBOX_SLOT_WRITE (R552): the bytes that lie in the inbound slots go into the mailbox ring. -/
def execMailboxSlotWrite (vf : Nat) (off : BitVec 12) (data : List Byte) (s : State) : Host.Outcome State Fault Refusal :=
  answer s (onVf vf (fun s => poke (s.regF .EP_VF1 51 11 0 vf * 2048 + off.toNat) 0 (data.take (0x400 - off.toNat)) s) s)

/-- MB_DB_WRITE (R552): bit n of the inbound bitmap, and the mailbox interrupt by IO0's context 0. -/
def execMbDbWrite (vf : Nat) (v : W64) (s : State) : Host.Outcome State Fault Refusal :=
  answer s (onVf vf (fun s =>
    if 16 ≤ v.toNat then s
    else remapInterrupt 0 0 0 (s.regF .EP_VF0 23 12 0 vf) 0 (s.setRegF .EP_MBOX (32 + v.toNat) (32 + v.toNat) 1 0 vf)) s)

/-- MB_PEND_READ (R552): the host gets the outbound bitmap, which clears. -/
def execMbPendRead (vf : Nat) (s : State) : Host.Outcome State Fault Refusal :=
  answer s (onVf vf (fun s =>
    let w := s.regF .EP_MBOX 31 16 0 vf
    pushTlp (activeEp s) ⟨0, .completion, vf, 0, 0x1808, 8, leBytes 8 w, .sc, false⟩ (s.setRegF .EP_MBOX 31 16 0 0 vf)) s)

/-! ## MSI-X (R556 to R558) -/

/-- Whether a message of a vector may leave: neither the vector nor its function masked, MSI-X and Bus Master Enable set. -/
def msixOpen (f : EpFn) (v : Nat) : Bool := f.msix && !f.fmask && f.bme && !f.mask.getLsbD v

/-- A vector is raised: sent, or its pending bit set. -/
def raiseMsix (fn v : Nat) (s : State) : State :=
  let f := s.fnAt fn
  if msixOpen f v && epUp s then pushTlp (activeEp s) ⟨0, .message, fn, 0, w64 v, 0, [], .sc, false⟩ s
  else s.modFn fn fun f => { f with pend := f.pend ||| (1#2048 <<< v) }

/-- Pending vectors of a function that may leave now are sent once. -/
def sendPending (fn : Nat) (s : State) : State :=
  let f := s.fnAt fn
  ((List.range (fnVectors fn)).filter fun v => f.pend.getLsbD v && msixOpen f v).foldl
    (fun s v => raiseMsix fn v (s.modFn fn fun f => { f with pend := f.pend &&& ~~~(1#2048 <<< v) })) s

/-- MSIX_UNMASK (R556): a vector, or the function. -/
def execMsixUnmask (fn : Nat) (vec : Option Nat) (s : State) : Host.Outcome State Fault Refusal :=
  answer s (if decide (1024 < fn) || !epUp s || !fnPresent s fn || (s.fnAt fn).flr then s
    else match vec with
      | some v => if fnVectors fn ≤ v then s else sendPending fn (s.modFn fn fun f => { f with mask := f.mask &&& ~~~(1#2048 <<< v) })
      | none => sendPending fn (s.modFn fn fun f => { f with fmask := false }))

/-- A write of EP_MBOX[v] (Table 13-18): the inbound bits written 1 clear, the outbound ones are set with a raise of vector 0. -/
def writeEpMbox (vf : Nat) (v : W64) (s : State) : State :=
  if vf = 0 ∨ 1024 < vf then s
  else
    let s := (s.setRegF .EP_MBOX 63 32 (fld (s.reg .EP_MBOX 0 vf &&& ~~~v) 63 32) 0 vf)
    if bit v 0 then raiseMsix vf 0 (s.setRegF .EP_MBOX 31 16 (s.regF .EP_MBOX 31 16 0 vf ||| fld v 31 16) 0 vf)
    else s.setRegF .EP_MBOX 31 16 (fld v 31 16) 0 vf

/-- EP_MBOX_SEND (R557). -/
def execEpMboxSend (_r : Req) (io vf : Nat) (v : W64) (s : State) : Host.Outcome State Fault Refusal :=
  answer s (if io < 2 then writeEpMbox vf v s else s)

/-- A write of EP_SEND (R557). -/
def writeEpSend (r : Req) (io : Nat) (v : W64) (s : State) : State :=
  let fn := fld v 42 32
  let vec := fld v 10 0
  if !isHF r ∨ 1024 < fn ∨ fnVectors fn ≤ vec then refuse (.fabric (ioStop io)) (ioStop io) r s
  else raiseMsix fn vec s

/-- EP_SEND (R557). -/
def execEpSend (r : Req) (io : Nat) (v : W64) (s : State) : Host.Outcome State Fault Refusal :=
  answer s (if io < 2 then writeEpSend r io v s else s)

/-! ## DMA rings (R554, R555, R558) -/

/-- Whether a ring's context selector names an entry of world 1. -/
def sealedCtx (s : State) (io ctx : Nat) : Bool :=
  match ctxEntry s io ctx with
  | .ok e => bit (e.words.getD 0 0) 63
  | .error _ => false

/-- A write of a ring register (R555). -/
def writeRing (r : Req) (n : RegName) (io ring : Nat) (v : W64) (s : State) : State :=
  let no := refuse (.fabric (ioStop io)) (ioStop io) r s
  match n with
  | .EP_RCFG =>
    let new := n.merge (s.reg n io ring) v
    let who := if sealedCtx s io (fld v 31 16) then decide (r = .cx 0) else isHF r
    if !who || (bit (s.reg n io ring) 63 && new != s.reg n io ring) then no else s.setReg n new io ring
  | _ => if isHF r then s.writeReg n v io ring else no

/-- EP_RTAIL_WRITE (R554, R555). -/
def execEpRtailWrite (r : Req) (io ring : Nat) (v : W64) (s : State) : Host.Outcome State Fault Refusal :=
  answer s (if io < 2 ∧ ring < 256 then writeRing r .EP_RTAIL io ring v s else s)

/-- A ring stops with a code (Table 13-17). -/
def stopRing (io ring code : Nat) (s : State) : State :=
  (s.setRegF .EP_RCFG 63 63 0 io ring).setReg .EP_RSTAT (w64 (2 ^ 63 + code)) io ring

/-- A descriptor is done: head advances, and its interrupt is raised. -/
def ringDone (io ring : Nat) (irq : Bool) (s : State) : State :=
  let s := s.setRegF .EP_RHEAD 31 0 ((s.regF .EP_RHEAD 31 0 io ring + 1) % 2 ^ 32) io ring
  if irq then raiseMsix (s.regF .EP_RCFG 10 0 io ring) (s.regF .EP_RCFG 47 42 io ring) s else s

/-- Bytes leave to the host as posted writes of at most 512 bytes. -/
def hostWrite (io fn : Nat) (host : W64) (bs : List Byte) (ep : Bool) (s : State) : State :=
  (List.range ((bs.length + 511) / 512)).foldl (fun s i =>
    let part := (bs.drop (512 * i)).take 512
    pushTlp io ⟨0, .memWrite, fn, 0, host + w64 (512 * i), part.length, part, .sc, ep⟩ s) s

/-- One descriptor, performed in full, with the host's answer. -/
def runDescriptor (io ring : Nat) (h : HostReply) (s : State) : State :=
  let cfg := s.reg .EP_RCFG io ring
  let ctx := fld cfg 31 16
  let fn := fld cfg 10 0
  let slot := s.regF .EP_RHEAD 31 0 io ring % 2 ^ min 16 (fld cfg 57 48)
  let fault := fun (f : IoFault) (va : Nat) (s : State) => stopRing io ring 2 (iotuFault io ctx va f 0 s)
  match dmaRead io ctx ((s.reg .EP_RBASE io ring).toNat + slot * 32) 32 s with
  | .error (f, va) => fault f va s
  | .ok (_, _, true, s) => stopRing io ring 2 s
  | .ok (bs, bad, false, s) =>
    let w := fun i => w64 (leNat ((bs.drop (8 * i)).take 8))
    let len := fld (w 0) 63 32
    let op := fld (w 0) 7 0
    let irq := bit (w 0) 8
    if bad then fault ⟨0x16, true⟩ 0 s
    else if len = 0 ∨ 4194304 < len ∨ (op ≠ 1 ∧ op ≠ 2) then stopRing io ring 1 s
    else if op = 1 then
      match dmaRead io ctx (w 2).toNat len s with
      | .error (f, va) => fault f va s
      | .ok (_, _, true, s) => stopRing io ring 2 s
      | .ok (d, p, false, s) =>
        let s := hostWrite io fn (w 1) d p s
        let s := if p then ioRecord io .deferred 0x42 0x04 0 0 none s else s
        if h = .error then stopRing io ring 3 s else ringDone io ring irq s
    else match h with
      | .data d =>
        if d.length ≠ len then stopRing io ring 3 s
        else (match dmaWrite io ctx (w 2).toNat d false s with
          | .error (f, va) => fault f va s
          | .ok s => ringDone io ring irq s)
      | _ => stopRing io ring 3 s

/-- RING_DESCRIPTOR (R554, R558, R559): an enabled ring with a descriptor on the active link takes its next one. -/
def execRingDescriptor (io ring : Nat) (h : HostReply) (s : State) : Host.Outcome State Fault Refusal :=
  answer s (if decide (2 ≤ io) || decide (256 ≤ ring) || activeEp s != io || !epUp s || finishing s then s
    else
      let cfg := s.reg .EP_RCFG io ring
      let fn := fld cfg 10 0
      if !bit cfg 63 || s.reg .EP_RTAIL io ring == s.reg .EP_RHEAD io ring then s
      else if (s.fnAt fn).flr then stopRing io ring 5 s
      else if decide (1024 < fn) || !fnPresent s fn || !(s.fnAt fn).bme then stopRing io ring 4 s
      else runDescriptor io ring h s)

/-! ## Bus Master Enable and function reset (R558 to R561) -/

/-- BME_CLEAR (R558). -/
def execBmeClear (fn : Nat) (s : State) : Host.Outcome State Fault Refusal :=
  answer s (if decide (1024 < fn) || !epUp s || !fnPresent s fn || (s.fnAt fn).flr then s
    else s.modFn fn fun f => { f with bme := false })

/-- BME_SET (R558). -/
def execBmeSet (fn : Nat) (s : State) : Host.Outcome State Fault Refusal :=
  answer s (if decide (1024 < fn) || !epUp s || !fnPresent s fn || (s.fnAt fn).flr then s
    else sendPending fn (s.modFn fn fun f => { f with bme := true }))

/-- A function reset begins: Bus Master Enable clears and the function's rings stop; one in progress latches another (R559,
R561). -/
def startFlr (fn : Nat) (s : State) : State :=
  if (s.fnAt fn).flr then s.modFn fn fun f => { f with flrAgain := true }
  else
    let mine := (List.range 512).filter fun i =>
      bit (s.reg .EP_RCFG (i / 256) (i % 256)) 63 && s.regF .EP_RCFG 10 0 (i / 256) (i % 256) == fn
    mine.foldl (fun s i => stopRing (i / 256) (i % 256) 5 s) (s.modFn fn fun f => { f with bme := false, flr := true })

/-- A reset of the PF and every VF, which clears VF Enable (R560). -/
def startPfFlr (s : State) : State :=
  (List.range (totalVfs s + 1)).foldl (fun s fn => startFlr fn s) (s.modFn 0 fun f => { f with vfe := false })

/-- FLR_VF (R559, R561). -/
def execFlrVf (fn : Nat) (s : State) : Host.Outcome State Fault Refusal :=
  answer s (if fn = 0 ∨ !epUp s ∨ !fnPresent s fn then s else startFlr fn s)

/-- FLR_PF (R560). -/
def execFlrPf (s : State) : Host.Outcome State Fault Refusal := answer s (if epUp s then startPfFlr s else s)

/-- FLR_COMPLETE (R559 to R561): the function's configuration space, MSI-X table and mailbox bitmaps return to their reset values, and
level H is told; not while a PERST_N input holds the endpoint in reset (R685). -/
def execFlrComplete (fn : Nat) (s : State) : Host.Outcome State Fault Refusal :=
  answer s (if 1024 < fn ∨ !(s.fnAt fn).flr ∨ !(s.ioAt (activeEp s)).perstIn then s
    else
      let again := (s.fnAt fn).flrAgain
      let s := (s.modFn fn fun _ => .cold).setReg .EP_MBOX 0 0 fn
      let s := s.setRegF .EP_FLR_PEND (fn % 64) (fn % 64) 1 0 (fn / 64)
      let s := sysIrq 1 s
      if again then startFlr fn s else s)

/-- The completion of a host's configuration request to a function. -/
def configReply (fn : Nat) (st : CplStatus) (s : State) : State :=
  pushTlp (activeEp s) ⟨0, .completion, fn, 0, 0, 0, [], st, false⟩ s

/-- CONFIGURATION_REQUEST (R558, R560, R565): UR from a function that is absent, Request Retry Status from one in reset, else the field
is set. -/
def execConfigurationRequest (fn : Nat) (w : CfgField) (v : Bool) (s : State) : Host.Outcome State Fault Refusal :=
  answer s (if !epUp s then s
    else if !fnPresent s fn then configReply fn .ur (epRecord 20 s)
    else if (s.fnAt fn).flr then configReply fn .rrs s
    else
      let s := configReply fn .sc s
      match w with
      | .memorySpaceEnable => s.modFn fn fun f => { f with mse := v }
      | .busMasterEnable => (let s := s.modFn fn fun f => { f with bme := v }; if v then sendPending fn s else s)
      | .vfEnable => if fn = 0 then s.modFn 0 fun f => { f with vfe := v } else s
      | .msixEnable => (let s := s.modFn fn fun f => { f with msix := v }; if v then sendPending fn s else s)
      | .functionMask => (let s := s.modFn fn fun f => { f with fmask := v }; if v then s else sendPending fn s))

/-- PERST_N_INPUT (R680, R685): while the input of an endpoint stop is low the stop is in reset and every function too. -/
def execPerstNInput (io : Nat) (high : Bool) (s : State) : Host.Outcome State Fault Refusal :=
  answer s (if decide (2 ≤ io) || (s.ioAt io).perstIn == high then s
    else
      let s := s.modIo io fun x => { x with perstIn := high }
      if persOf s io ≠ 4 then s
      else if high then portRelease (ioStop io) (s.setRegF .IO_RST 1 1 0 io)
      else (startPfFlr (islandReset io s)).setRegF .IO_RST 1 1 1 io)

end Sys2Proof.Machine
end

