-- ==== Sys2Proof/Machine/Power.lean ====
section
/-! DEFINITION. Power domains, frequency and temperature, package states, wakes, and resets by request (chapter 12). -/

namespace Sys2Proof.Machine

/-! ## Cold power-on and domains (12.1, 12.2) -/

/-- Cold power-on (R504, R527): a Cold reset, and no domain up yet; CX0 stays in reset until the fuse load has ended. -/
def powerOn (straps : W64) (s : State) : State :=
  let s := (coldReset straps s).setReg .PWR_RDY 0
  { s with power := { s.power with fusing := true } }

/-- COLD_POWER_ON (R504): the straps are sampled (R678). -/
def execColdPowerOn (straps : BitVec 5) (s : State) : Host.Outcome State Fault Refusal := answer s (powerOn (straps.setWidth 64) s)

/-- SUPPLIES_REMOVED (R510, R527): the Off state: nothing runs and DRAM is lost. -/
def execSuppliesRemoved (s : State) : Host.Outcome State Fault Refusal :=
  let t := (s.afterReset .cold).setReg .PWR_RDY 0
  answer s { t with power := { t.power with off := true, fusing := true }, boot := { t.boot with colds := s.boot.colds } }

/-- FUSE_LOAD_COMPLETE (R5, R13, R504): with the load the service domain is up; CX0 leaves reset, and ID_PART.fuse_ok shows
whether the load has succeeded. -/
def execFuseLoadComplete (ok : Bool) (s : State) : Host.Outcome State Fault Refusal :=
  answer s (if s.power.off || !s.power.fusing || s.power.stuck.contains 0 || !s.power.refclk then s
    else
      let s := (s.setRegF .PWR_RDY 3 0 15).setRegF .ID_PART 0 0 ok.toNat
      { s with power := { s.power with fusing := false } })

/-- The row of a core rail's tiles. -/
def rowTiles (k : Nat) : List Nat := (List.range 72).filter fun t => tileStop t / 16 == k

/-- The first step of a domain's bring-up that is not complete; none when all are. -/
def nextStep (s : State) (d : Nat) : Option Nat :=
  [0, 1, 2, 3].find? fun i => !bit (s.reg .PWR_RDY) (4 * d + i)

/-- Whether a domain's bring-up may go on: its supply is on and the domains it waits for are up (R504, Table 12-6). -/
def mayRaise (s : State) (d : Nat) : Bool :=
  decide (d < 16) && !s.power.off && !s.power.stuck.contains d && bit (s.reg .PWR_DOM_CTL) d &&
    (d == 0 || (domainUp s 0 && !s.power.fusing)) && (d == 0 || d == 1 || d == 7 || (domainUp s 1 && domainUp s 7))

/-- A record of the power unit in the SV1 bank. -/
def powerRecord (cls : ErrClass) (type info : Nat) (s : State) : State := record (.sv 1) (mkRec cls 0x0A 0x52 type info) s

/-- Whether every in-service core of a row is in C3 or in Tile reset (Table 12-1). -/
def railIdle (s : State) (k : Nat) : Bool :=
  (liveCores s).all fun n => coreRow n != k || decide ((s.core n).run = .c3) || s.power.tileRst.contains (n / 2)

/-- Whether every link of every I/O stop is disabled. -/
def linksDisabled (s : State) : Bool := (List.range 12).all fun n => persOf s n == 0

/-- A domain is switched off, where its condition holds (R501); else err says why not. -/
def switchOff (d : Nat) (s : State) : State :=
  let ok := if d = 5 then linksDisabled s else railIdle s (d - 8)
  if ok then (s.setRegF .PWR_DOM_CTL d d 0).setRegF .PWR_RDY (4 * d + 3) (4 * d) 0
  else s.setRegF .PWR_DOM_CTL 17 16 (if d = 5 then 2 else 1)

/-- A request for a switchable domain; one that meets the domain's own bring-up waits in its slot (R519). -/
def requestDomain (d : Nat) (on : Bool) (s : State) : State :=
  let isOn := bit (s.reg .PWR_DOM_CTL) d
  if isOn && !domainUp s d && !s.power.stuck.contains d then
    { s with power := { s.power with slots := NMap.put s.power.slots d on.toNat } }
  else if on = isOn then s
  else if on then s.setRegF .PWR_DOM_CTL d d 1
  else switchOff d s

/-- DOMAIN_BRINGUP_STEP (R502, R504, R683): the step completes; step 2 needs REFCLK. At the last one the domain's slot runs. -/
def execDomainBringupStep (d : Nat) (s : State) : Host.Outcome State Fault Refusal :=
  answer s (if !mayRaise s d then s
    else match nextStep s d with
      | none => s
      | some i =>
        if i = 1 ∧ !s.power.refclk then s
        else
          let s := s.setRegF .PWR_RDY (4 * d + i) (4 * d + i) 1
          if i ≠ 3 then s
          else
            let slot := NMap.find? s.power.slots d
            let s := { s with power := { s.power with slots := s.power.slots.filter fun e => e.1 != d } }
            if slot = some 0 then switchOff d s else s)

/-- BRINGUP_TIMEOUT (R503): the domain stays at its step; a core rail's tiles leave service, the service domain leaves the part in
the always-on state, and for another CX0 logs a fatal record and stops the boot. -/
def execBringupTimeout (d : Nat) (s : State) : Host.Outcome State Fault Refusal :=
  answer s (if decide (16 ≤ d) || s.power.off || domainUp s d || s.power.stuck.contains d || !bit (s.reg .PWR_DOM_CTL) d then s
    else
      let s := { s with power := { s.power with stuck := s.power.stuck ++ [d] } }
      if d = 0 then s
      else if 8 ≤ d then (rowTiles (d - 8)).foldl (fun s t => outOfService (.tile t) s) s
      else record (.sv 0) (mkRec .fatal 0x02 0x52 0x06 d) s)

/-- REFCLK_LOSS (R505, R683). -/
def execRefclkLoss (s : State) : Host.Outcome State Fault Refusal :=
  answer s (if !s.power.refclk then s
    else powerRecord .corrected 0x06 0 { s with power := { s.power with refclk := false } })

/-- REFCLK_RETURN (R505). -/
def execRefclkReturn (s : State) : Host.Outcome State Fault Refusal :=
  answer s { s with power := { s.power with refclk := true } }

/-! ## Loss of power good (R500, Table 12-2) -/

/-- The slice and entry of every directory entry. -/
def dirEntries (s : State) : List (Nat × DirEnt) := s.dir.map fun e => (e.1 / 65536, e.2)

/-- A row's L2s are gone: a line one of them owned is poisoned in memory and every copy invalidated; the presence of the others is
removed. -/
def forgetRow (k : Nat) (s : State) : State :=
  (dirEntries s).foldl (fun s e =>
    let t := e.1
    let d := e.2
    if (d.st = .EM ∨ d.st = .O) ∧ coreRow d.owner = k then
      whole d.line (fun s => memWrite t d.line d.key 0 true (invalidateAll d.line s)) s
    else ((holders d).filter fun n => coreRow n == k).foldl (fun s n => removeHolder t d.line n s) s) s

/-- A core of a lost row stops: its caches and its requests are gone. -/
def loseCore (n : Nat) (s : State) : State :=
  let s := (cacheLines s (.l2 n) ++ cacheLines s (.l1d n) ++ cacheLines s (.l1i n)).foldl (fun s l => dropCore n l.line s) s
  let s := s.modFab fun f => { f with outs := f.outs.filter fun o => !decide (o.who = .core n) }
  let s := s.modHomes fun h => { h with wbs := h.wbs.filter fun w => w.core != n }
  s.setCore n { Core.cold with run := .stopped }

/-- The loss of a core rail. -/
def loseRow (k : Nat) (s : State) : State :=
  let s := (forgetRow k s).setRegF .PWR_RDY (4 * (8 + k) + 3) (4 * (8 + k)) 0
  let s := ((List.range 144).filter fun n => coreRow n == k).foldl (fun s n => loseCore n s) s
  (rowTiles k).foldl (fun s t => if inServiceNow s (.tile t) then logOut (.tile t) (outOfService (.tile t) s) else s) s

/-- POWER_GOOD_LOSS (R500, Table 12-2, Table 14-3). -/
def execPowerGoodLoss (d : Nat) (s : State) : Host.Outcome State Fault Refusal :=
  answer s (if decide (16 ≤ d) || !domainUp s d then s
    else
      let s := raiseCx 1 2 (powerRecord .fatal 0x11 d { s with power := { s.power with lost := s.power.lost ++ [d] } })
      if 8 ≤ d then loseRow (d - 8) s
      else if d = 5 ∨ d = 6 then
        (List.range 12).foldl (fun s n => record (.io n) (mkRec .fatal (ioStop n) 0x40 0x11 d) (linksDown n s))
          (s.setRegF .PWR_RDY (4 * d + 3) (4 * d) 0)
      else startFinish s)

/-- A write of PWR_DOM_CTL (R501): level F and CX1. -/
def writeDomCtl (r : Req) (v : W64) (s : State) : State :=
  if !(isF r || r == .cx 1) || finishing s then s
  else
    let s := s.setRegF .PWR_DOM_CTL 17 16 (fld (s.reg .PWR_DOM_CTL &&& ~~~v) 17 16)
    (5 :: (List.range 8).map (8 + ·)).foldl (fun s d => requestDomain d (bit v d) s) s

/-- PWR_DOM_CTL_WRITE (R501). -/
def execPwrDomCtlWrite (r : Req) (v : W64) (s : State) : Host.Outcome State Fault Refusal := answer s (writeDomCtl r v s)

/-! ## Frequency and temperature (12.3) -/

/-- The package power limit in W. -/
def limitW (s : State) : Nat := max 380 (min 560 (s.regF .PWR_PKG_CFG 9 0))

/-- The all-core frequency of Table 12-7 in 25 MHz units. -/
def baseFreq (s : State) : Nat :=
  let w := limitW s
  if w < 420 then 92 else if w < 460 then 100 else if w < 500 then 108 else if w < 560 then 116 else 124

/-- A tile's target in 25 MHz units. -/
def tileTarget (s : State) (t : Nat) : Nat :=
  let x := s.regF .TC_FREQ 7 0 t
  if x = 0 then baseFreq s else min 152 x

/-- A tile's grant; one never set is that of Table 12-7. -/
def tileGrant (s : State) (t : Nat) : Nat := max (baseFreq s) (s.regF .TC_FREQ 15 8 t)

/-- Sets a tile's grant, between Table 12-7 and 3.8 GHz. -/
def setGrant (t g : Nat) (s : State) : State := s.setRegF .TC_FREQ 15 8 (max (baseFreq s) (min 152 g)) t

/-- The tiles in the order R507 considers them: after the last one raised. -/
def raiseOrder (s : State) : List Nat := (List.range 72).map fun i => (s.power.raised + 1 + i) % 72

/-- Grants are raised by 100 MHz each, as many as fit the power estimate. -/
def raiseGrants : List Nat → Nat → State → State
  | [], _, s => s
  | t :: ts, room, s =>
    if room = 0 then s
    else if tileGrant s t < tileTarget s t ∧ !s.power.throttled.contains t then
      raiseGrants ts (room - 1) { (setGrant t (tileGrant s t + 4) s) with power := { s.power with raised := t } }
    else raiseGrants ts room s

/-- TC_FREQ.actual: the lower of target and grant, halved above 95 °C (R507, R509). -/
def showFreq (t : Nat) (s : State) : State :=
  let f := min (tileTarget s t) (tileGrant s t)
  s.setRegF .TC_FREQ 23 16 (if s.power.halved.contains t then f / 2 else f) t

/-- GRANT_UPDATE (R507, R509). -/
def execGrantUpdate (measuredW room : Nat) (s : State) : Host.Outcome State Fault Refusal :=
  answer s (if finishing s || s.power.off then s
    else
      let all := List.range 72
      let s := all.foldl (fun s t => setGrant t (tileGrant s t - (if s.power.throttled.contains t then 4 else 0)) s) s
      let s := if 98 * limitW s < 100 * measuredW then all.foldl (fun s t => setGrant t (tileGrant s t - 4) s) s
        else raiseGrants (raiseOrder s) room s
      all.foldl (fun s t => showFreq t (setGrant t (min (tileGrant s t) (tileTarget s t)) s)) s)

/-- The throttle threshold in °C. -/
def throttleC (s : State) : Nat := max 70 (min 94 (s.regF .PWR_THERM 7 0))

/-- PWR_THERM.hot_stop and hot_c. -/
def showHottest (s : State) : State :=
  let h := s.power.temps.foldl (fun m e => if m.2 < e.2 then e else m) (0, 0)
  (s.setRegF .PWR_THERM 47 40 h.1).setRegF .PWR_THERM 39 32 (min 255 h.2)

/-- A tile's throttling and clock halving by its reading. -/
def tileHeat (t c : Nat) (s : State) : State :=
  let add := fun (l : List Nat) => if l.contains t then l else l ++ [t]
  let s := if throttleC s ≤ c ∧ !s.power.throttled.contains t then
      raiseCx 1 2 { s with power := { s.power with throttled := add s.power.throttled } }
    else if c + 3 ≤ throttleC s then { s with power := { s.power with throttled := s.power.throttled.erase t } }
    else s
  if 95 < c then { s with power := { s.power with halved := add s.power.halved } }
  else if c ≤ 93 then { s with power := { s.power with halved := s.power.halved.erase t } }
  else s

/-- THERMAL_SAMPLE (R509, Table 12-8): tiles, memory stops and I/O stops have sensors. trip_stop names the sensor of the latest trip, a
reading that starts Finish (log entry 60). -/
def execThermalSample (stop c : Nat) (s : State) : Host.Outcome State Fault Refusal :=
  answer s (match stopKind stop with
    | some (3, _) | none => s
    | some (k, n) =>
      let s := showHottest { s with power := { s.power with temps := NMap.set 0 s.power.temps stop c } }
      let s := if k = 0 then showFreq n (tileHeat n c s) else s
      if c < 105 then s
      else
        let s := if bit (s.reg .PWR_THERM) 63 && noFinish s then s else (s.setRegF .PWR_THERM 63 63 1).setRegF .PWR_THERM 55 48 stop
        startFinish (raiseCx 1 2 (powerRecord .fatal 0x12 stop s)))

/-! ## Package states (12.4, 12.5) -/

/-- The package state. -/
def pkgState (s : State) : Nat := s.regF .PWR_PKG_STATUS 3 0
def setPkg (x : Nat) (s : State) : State := s.setRegF .PWR_PKG_STATUS 3 0 x
def setPkgSlot (x : Nat) (s : State) : State := s.setRegF .PWR_PKG_STATUS 10 8 x

/-- Whether every in-service core is in C3, or in C1 or C3. -/
def allC3 (s : State) : Bool := (liveCores s).all fun n => decide ((s.core n).run = .c3)
def allIdle (s : State) : Bool := (liveCores s).all fun n => decide ((s.core n).run = .c3 ∨ (s.core n).run = .feather)

/-- PACKAGE_IDLE_ENTRY (R514). -/
def execPackageIdleEntry (s : State) : Host.Outcome State Fault Refusal :=
  answer s (if pkgState s == 0 && s.regF .PWR_PKG_CFG 31 16 != 0 && allIdle s && !(List.range 16).any (midUnit s) then setPkg 1 s else s)

/-- PACKAGE_IDLE_EXIT (R514). -/
def execPackageIdleExit (s : State) : Host.Outcome State Fault Refusal := answer s (if pkgState s = 1 then setPkg 0 s else s)

/-- The wake that ends package sleep: recorded, and the rails and DRAM begin to come back (R517, R523). -/
def leaveSleep (code detail : Nat) (s : State) : State := setPkg 4 (recordWake code detail (2 ^ code) s)

/-- A wake: it ends package sleep, or fills the slot of a transition as a request for run (R517, R519). -/
def wake (code detail : Nat) (s : State) : State :=
  match pkgState s with
  | 2 => leaveSleep code detail (raiseCx 1 3 s)
  | 3 | 4 =>
    let s := setPkgSlot 1 (raiseCx 1 3 s)
    { s with power := { s.power with slots := NMap.put s.power.slots 16 (code * 256 + detail % 256) } }
  | _ => s

/-- A write of PWR_PKG_REQ (R515, R516, R519, R521): levels H and F, and CX1. -/
def writePkgReq (r : Req) (v : W64) (s : State) : State :=
  let target := fld v 1 0
  if !(isHF r || r == .cx 1) || (target != 1 && target != 2) || pkgState s == 5 then s
  else
    let s := raiseCx 1 3 s
    if target = 1 then
      (match pkgState s with
       | 2 | 3 | 4 => wake 6 (reqStop r) s
       | _ => s.setRegF .PWR_PKG_STATUS 11 11 0)
    else
      (match pkgState s with
       | 2 => s
       | 3 | 4 => setPkgSlot 2 s
       | _ => s.setRegF .PWR_PKG_STATUS 11 11 1)

/-- PKG_REQ_SLEEP (R515, R519). -/
def execPkgReqSleep (r : Req) (s : State) : Host.Outcome State Fault Refusal := answer s (writePkgReq r 2 s)

/-- PKG_REQ_RUN (R516, R519). -/
def execPkgReqRun (r : Req) (s : State) : Host.Outcome State Fault Refusal := answer s (writePkgReq r 1 s)

/-- SLEEP_ENTRY_START (R515): engines stop and the memory stops enter self-refresh. -/
def execSleepEntryStart (s : State) : Host.Outcome State Fault Refusal :=
  answer s (if bit (s.reg .PWR_PKG_STATUS) 11 && decide (pkgState s < 2) && allC3 s then
      let s := (List.range 16).foldl (fun s e => stopEngine e s) s
      allSelfRefresh (setPkg 3 (s.setRegF .PWR_PKG_STATUS 11 11 0))
    else s)

/-- Every core rail, on or off. -/
def setRails (on : Bool) (s : State) : State :=
  (s.setRegF .PWR_DOM_CTL 15 8 (if on then 0xFF else 0)).setRegF .PWR_RDY 63 32 (if on then 0xFFFFFFFF else 0)

/-- SLEEP_ENTRY_COMPLETE (R515, R519): the core rails are off; a wake that has come since starts the way back. -/
def execSleepEntryComplete (s : State) : Host.Outcome State Fault Refusal :=
  answer s (if pkgState s ≠ 3 ∨ (List.range 16).any (midUnit s) then s
    else
      let slot := s.regF .PWR_PKG_STATUS 10 8
      let w := NMap.get 0x600 s.power.slots 16
      let s := setPkg 2 (setPkgSlot 0 (setRails false s))
      let s := { s with power := { s.power with slots := s.power.slots.filter fun e => e.1 != 16 } }
      if slot = 1 then leaveSleep (w / 256) (w % 256) s else s)

/-- PACKAGE_WAKE (R517, R523): a wake source of Table 12-12 other than the release of PWRFAIL_N and power-on. -/
def execPackageWake (code : BitVec 4) (detail : Byte) (s : State) : Host.Outcome State Fault Refusal :=
  answer s (if [1, 2, 3, 4, 6].contains code.toNat then wake code.toNat detail.toNat s else s)

/-- PACKAGE_RUN_REACHED (R517, R519): rails up, DRAM out of self-refresh; a sleep request in the slot is armed. -/
def execPackageRunReached (s : State) : Host.Outcome State Fault Refusal :=
  answer s (if pkgState s ≠ 4 then s
    else
      let slot := s.regF .PWR_PKG_STATUS 10 8
      let s := (List.range 16).foldl (fun s n => s.modMc n fun m => { m with selfRefresh := false }) s
      let s := setPkg 0 (setPkgSlot 0 (setRails true s))
      let s := { s with power := { s.power with slots := s.power.slots.filter fun e => e.1 != 16 } }
      if slot = 2 then s.setRegF .PWR_PKG_STATUS 11 11 1 else s)

/-- SELF_REFRESH_RETURN (R518). -/
def execSelfRefreshReturn (mc : Nat) (s : State) : Host.Outcome State Fault Refusal :=
  answer s (if mc < 16 ∧ pkgState s = 2 ∧ (s.mc mc).ents = [] then s.modMc mc fun m => { m with selfRefresh := true } else s)

/-! ## The always-on timer and wakes (R522, R523) -/

/-- A write of AO_TIMER: CX1 only. -/
def writeAoTimer (r : Req) (v : W64) (s : State) : State :=
  if r = .cx 1 then s.writeReg .AO_TIMER v
  else refuse (.fabric 0x0A) 0x0A r (s.setRegF .AO_TIMER 62 62 1)

/-- AO_TIMER_WRITE (R522). -/
def execAoTimerWrite (r : Req) (v : W64) (s : State) : Host.Outcome State Fault Refusal := answer s (writeAoTimer r v s)

/-- The timer reaches 0. -/
def timerEnds (s : State) : State :=
  wake 2 0 (raiseCx 1 1 ((s.setRegF .AO_TIMER 63 63 0).setRegF .AO_TIMER 47 0 0))

/-- AO_TIMER_EXPIRY (R522). -/
def execAoTimerExpiry (s : State) : Host.Outcome State Fault Refusal :=
  answer s (if bit (s.reg .AO_TIMER) 63 then timerEnds s else s)

/-- LINK_WAKE (R517, R523). -/
def execLinkWake (io : Nat) (s : State) : Host.Outcome State Fault Refusal := answer s (if io < 12 then wake 4 io s else s)

/-! ## Resets by request (12.7) -/

/-- Whether a reset is in progress, Finish runs, or the requester may not write PWR_RST (R529). -/
def noReset (r : Req) (s : State) : Bool :=
  !(isF r || r == .cx 0 || r == .cx 2) || finishing s || s.power.off || s.power.fusing

/-- A write of PWR_RST (R529). -/
def writePwrRst (r : Req) (v : W64) (s : State) : State :=
  if noReset r s then s
  else match fld v 1 0 with
    | 1 => warmReset s
    | 2 => powerOn (s.reg .STRAP_STATUS &&& 0x1F#64) s
    | _ => s

/-- PWR_RST_WARM (R527, R529). -/
def execPwrRstWarm (r : Req) (s : State) : Host.Outcome State Fault Refusal := answer s (writePwrRst r 1 s)

/-- PWR_RST_COLD (R527, R529). -/
def execPwrRstCold (r : Req) (s : State) : Host.Outcome State Fault Refusal := answer s (writePwrRst r 2 s)

/-! ## Tile reset (R530 to R532) -/

/-- Whether a core may be stopped now: not within a device access that has begun (R168). -/
def mayStop (s : State) (n : Nat) : Bool :=
  match (s.core n).wait with
  | some w => (match w.phase with | .dev _ => false | _ => true)
  | none => true

/-- The partition a core runs is left as by an exit, or lost when the core cannot write its save area; CX0 gets a record with the
partition number (R531). -/
def resetPartition (n : Nat) (s : State) : State :=
  match (s.core n).running with
  | none => s
  | some r =>
    let dead := s.ras.dead.any fun e => decide (e.1 = .core n)
    let st := (peek s (descStateAddr r.desc) 1 0).1
    let s := if dead then pokeNat (descStateAddr r.desc) 0 1 4 s
      else leavePartition n r (s.core n).pc (if st = 3 then 4 else 1) s
    { s with sealedRecs := s.sealedRecs ++ [(.core n,
      { mkRec .uncorrected (coreStop n) 0x06 0x16 0 with misc := some (w64 (r.part % 2 ^ 16 * 2 ^ 48)), secret := true })] }

/-- Steps 1 and 2 of R530 for one core: it stops, its stores become visible and its lines are written back. -/
def stopForTile (n : Nat) (s : State) : State :=
  if !mayStop s n then s
  else
    let s := drainStores n (resetPartition n s)
    let s := (cacheLines s (.l2 n)).foldl (fun s l => evictL2 n l.line s) s
    s.modCore n fun c => { c with run := .stopped, wait := none, fills := [], granted := [], quiet := [], haltReq := false }

/-- Whether a core is stopped, with no request of it outstanding. -/
def tileQuiet (s : State) (n : Nat) : Bool :=
  decide ((s.core n).run = .stopped) && !s.fab.outs.any fun o => decide (o.who = .core n)

/-- A write of TC_RST (R530, R532): CX2 only. -/
def writeTcRst (r : Req) (t : Nat) (v : W64) (s : State) : State :=
  if r ≠ .cx 2 then s
  else if bit v 0 then
    if s.power.tileRst.contains t then s
    else
      let s := s.setRegF .TC_RST 1 1 1 t
      let s := { s with power := { s.power with tileRst := s.power.tileRst ++ [t] } }
      stopForTile (2 * t + 1) (stopForTile (2 * t) s)
  else if bit v 2 ∧ s.power.tileRst.contains t ∧ (s.core (2 * t)).run = .held ∧ (s.core (2 * t + 1)).run = .held then
    let s := { s with power := { s.power with tileRst := s.power.tileRst.erase t } }
    releaseCores (w64 s.boot.entry) 0 0 ([2 * t, 2 * t + 1].filter (coreInService s)) (s.setRegF .TC_RST 1 1 0 t)
  else s

/-- TILE_RESET (R530, R531). -/
def execTileReset (r : Req) (tile : Nat) (s : State) : Host.Outcome State Fault Refusal :=
  answer s (if tile < 72 then writeTcRst r tile 1 s else s)

/-- TILE_RESET_COMPLETE (R530): once every request of the cores has been answered they are reset and held. -/
def execTileResetComplete (tile : Nat) (s : State) : Host.Outcome State Fault Refusal :=
  answer s (if !s.power.tileRst.contains tile then s
    else
      let two := [2 * tile, 2 * tile + 1]
      let s := two.foldl (fun s n => if (s.core n).run = .stopped ∨ (s.core n).run = .held then s else stopForTile n s) s
      if two.all (tileQuiet s) then
        (two.foldl (fun s n =>
          let s := s.setCore n Core.cold
          { s with ras := { s.ras with dead := s.ras.dead.filter fun e => !decide (e.1 = .core n) } }) s).setRegF .TC_CSTATE 9 8 0 tile
      else s)

/-- TILE_RELEASE (R532). -/
def execTileRelease (r : Req) (tile : Nat) (s : State) : Host.Outcome State Fault Refusal :=
  answer s (if tile < 72 then writeTcRst r tile 4 s else s)

end Sys2Proof.Machine
end

