-- ==== Sys2Proof/Machine/Erg.lean ====
section
/-! DEFINITION. Erg: counter overflows, the sampling ring, freeze and snapshot (16.2 to 16.6). -/

namespace Sys2Proof.Machine

/-! ## Overflows (R649, R663) -/

/-- What is left in a counter that wraps: the remainder of an addition of up to 8 events in one cycle; 0 under edge counting,
which adds 1. -/
def wrapRest (edge : Bool) (s : State) : Nat × State :=
  if edge then (0, s) else (s.draw.1.toNat % 8, s.draw.2)

/-- A counter of a core, 0 to 7, or the cycle counter, 8, wraps. -/
def coreOverflow (n c : Nat) (s : State) : State :=
  let k := s.core n
  if k.ergStopped || k.run != .running then s
  else if c < 8 then
    let r := wrapRest (bit (k.erg (0x48 + c)) 40) s
    ergAdd n c (2 ^ 48 - fld (k.erg (0x50 + c)) 47 0 + r.1) r.2
  else if c = 8 then
    let k := (k.setErg 0x40 0).setErg 0x42 (setBit (k.erg 0x42) 8 true)
    let g := k.erg 0x41
    let s := s.setCore n (if bit g 17 then k.setErg 0x41 (setBit g 16 true) else k)
    deliver (coreStop n) n .openH (fld g 55 48) s
  else s

/-- A counter of an uncore block, 0 to 3, or its cycle counter, 4, wraps (R663). -/
def uncOverflow (b stop c : Nat) (s : State) : State :=
  let ctl := s.reg .UNC_CTL b
  if s.frozen.contains stop || bit ctl 0 then s
  else if c < 4 then
    let r := wrapRest (bit (s.reg .UNC_SEL b c) 40) s
    uncAdd b c (2 ^ 48 - s.regF .UNC_CNT 47 0 b c + r.1) stop r.2
  else if c = 4 then
    let s := (s.setReg .UNC_CYC 0 b).setReg .UNC_CTL (setBit ctl 12 true) b
    if bit ctl 63 then deliver stop (fld ctl 47 40) .openH (fld ctl 55 48) s else s
  else s

/-- COUNTER_OVERFLOW (R649, R663). The counter of a probe has no overflow bit and wraps (Table 06-24). -/
def execCounterOverflow (u : ErgUnit) (c : Nat) (s : State) : Host.Outcome State Fault Refusal :=
  answer s (match u with
    | .core n => if n < 144 then coreOverflow n c s else s
    | .tile t => if t < 72 then uncOverflow (uncBase u) (ergStop u) c s else s
    | .mc n => if n < 16 then uncOverflow (uncBase u) (ergStop u) c s else s
    | .io n => if n < 12 then uncOverflow (uncBase u) (ergStop u) c s else s
    | .probe p => if (stopKind p).isSome && c == 0 && !s.frozen.contains p then s.setReg .PRB_CNT 0 p else s)

/-! ## The sampling ring (R657 to R659) -/

/-- Records that the ring of a core holds at most. -/
def ringRecords (c : Core) : Nat := 256 * 2 ^ min 11 (fld (c.erg 0x61) 11 8)

/-- Records in the ring that software has not read. -/
def ringHeld (c : Core) : Nat := ((c.erg 0x62).toNat % 2 ^ 32 + 2 ^ 32 - (c.erg 0x63).toNat % 2 ^ 32) % 2 ^ 32

/-- SAMPLE_RING_WRITE (R658, R659): the oldest record goes to the ring at X_ERGSMPHEAD. -/
def execSampleRingWrite (n : Nat) (s : State) : Host.Outcome State Fault Refusal :=
  let c := s.core n
  answer s (match c.smp.recs with
    | [] => s
    | r :: rest =>
      if decide (144 ≤ n) || !bit (c.erg 0x60) 56 || bit (c.erg 0x64) 63 || ringHeld c == ringRecords c then s
      else
        let N := ringRecords c
        let head := (c.erg 0x62).toNat
        let base := fld (c.erg 0x61) 51 12 * 4096 / (64 * N) * (64 * N)
        let pa := base + 64 * (head % N)
        match ownership s (coreStop n) none pa 12 pa 0 with
        | .error _ => s.setCore n (c.setErg 0x64 (setBit (c.erg 0x64) 63 true))
        | .ok _ =>
          let s := poke pa 0 (r.flatMap fun w => leBytes 8 w.toNat) s
          let s := s.modCore n fun c => { (c.setErg 0x62 (w64 ((head + 1) % 2 ^ 32))) with smp := { c.smp with recs := rest } }
          if N ≤ 2 * ringHeld (s.core n) then smpNotify n s else s)

/-- SAMPLE_RECORD_READ (R657): MFS of X_ERGSMPREC7, index 0x77, which removes the record. -/
def execSampleRecordRead (n : Nat) (rd : RegNo) (s : State) : Host.Outcome State Fault Refusal :=
  answer s (onCoreOr n 7 (fun c => sysFault c (levelNum c.level) 0x77 false) (fun s =>
    let c := s.core n
    retire n c { cls := 7 } (s.setCore n ((c.setG rd.toNat (sysRead c n (levelNum c.level) 0x77)).afterRead 0x77).advance)) s)

/-! ## Freeze and snapshot (16.6) -/

/-- The requesters that may write ERG_GCTL (R670). -/
def gctlWriter (r : Req) : Bool := isHF r || r == .cx 0 || r == .cx 2 || r == .debug

/-- SV0 sends a freeze (kind 2), release (4) or snapshot (3) with a tag: ERG_GCTL shows it (Table 16-9). -/
def sendErg (kind tag : Nat) (s : State) : State :=
  let s := sendLane kind tag allStops s
  let s := (s.setRegF .ERG_GCTL 63 63 1).setRegF .ERG_GCTL 62 62 (decide (kind = 2)).toNat
  if kind = 3 then s.setRegF .ERG_GCTL 51 48 tag else s

/-- An op of ERG_GCTL is performed (R664), and forwarded where the Socket Link agreed on it (R669). -/
def performGctl (op : Nat) (s : State) : State :=
  let tag := (s.regF .ERG_GCTL 51 48 + 1) % 16
  let send := fun kind t => forwardLink 3 (kind + 16 * t) (sendErg kind t s)
  match op with
  | 1 => send 2 0
  | 2 => send 4 0
  | 3 => send 3 tag
  | _ => s

/-- A write of ERG_GCTL.op (R664, R670): one that meets busy waits. -/
def writeGctl (r : Req) (op : Nat) (s : State) : State :=
  if !gctlWriter r || op % 4 == 0 then s
  else if bit (s.reg .ERG_GCTL) 63 then { s with gctl := s.gctl ++ [op % 4] }
  else performGctl (op % 4) s

/-- ERG_FREEZE, ERG_RELEASE and ERG_SNAPSHOT (R664). -/
def execErgFreeze (r : Req) (s : State) : Host.Outcome State Fault Refusal := answer s (writeGctl r 1 s)
/-- ERG_RELEASE (R664). -/
def execErgRelease (r : Req) (s : State) : Host.Outcome State Fault Refusal := answer s (writeGctl r 2 s)
/-- ERG_SNAPSHOT (R664). -/
def execErgSnapshot (r : Req) (s : State) : Host.Outcome State Fault Refusal := answer s (writeGctl r 3 s)

/-- ERG_GCTL_BUSY_END (R664): busy clears, and the oldest write that waited is performed. -/
def execErgGctlBusyEnd (s : State) : Host.Outcome State Fault Refusal :=
  answer s (if !bit (s.reg .ERG_GCTL) 63 then s
    else
      let s := s.setRegF .ERG_GCTL 63 63 0
      match s.gctl with
      | [] => s
      | op :: rest => performGctl op { s with gctl := rest })

/-- FREEZE_AND_SNAPSHOT_FORWARDING (R669): SV0 sends the other part's message as its own, a snapshot with the same tag. -/
def execFreezeAndSnapshotForwarding (kind tag : BitVec 4) (s : State) : Host.Outcome State Fault Refusal :=
  let up := (List.range 12).any fun n => persOf s n == 3 && linkUp s n 0 && bit (s.reg .IO_SL n) 3
  answer s (if up && (kind == 2 || kind == 3 || kind == 4) then sendErg kind.toNat (if kind = 3 then tag.toNat else 0) s else s)

/-- A reserved-lane message reaches a stop: it is taken from the lane, and an island whose port is not in RUN does not receive it
(R251, R668). -/
def onLane (stop kind : Nat) (arg : Option Nat) (f : State → State) (s : State) : State :=
  match s.fab.lane.find? fun m => m.1 == stop && m.2.1 == kind && (arg.isNone || arg == some m.2.2) with
  | none => s
  | some m =>
    let s := s.modFab fun b => { b with lane := b.lane.erase m }
    if s.regF .NI_PORT 2 0 stop = 0 then f s else s

/-- The running cores of a stop: one in C1 or C3 counts nothing and takes gfrz when it leaves (R668). -/
def countingCores (s : State) (stop : Nat) : List Nat :=
  match stopKind stop with
  | some (0, t) => [2 * t, 2 * t + 1].filter fun n => (s.core n).run != .feather && (s.core n).run != .c3
  | _ => []

/-- The island of a stop takes the chip-wide freeze, or leaves it (R665). -/
def setFreeze (on : Bool) (stop : Nat) (s : State) : State :=
  let s := { s with frozen := (s.frozen.filter fun x => x != stop) ++ (if on then [stop] else []) }
  (countingCores s stop).foldl (fun s n => takeFreeze n s) s

/-- FREEZE_MESSAGE (R665). -/
def execFreezeMessage (stop : Nat) (s : State) : Host.Outcome State Fault Refusal :=
  answer s (onLane stop 2 none (setFreeze true stop) s)

/-- RELEASE_MESSAGE (R665). -/
def execReleaseMessage (stop : Nat) (s : State) : Host.Outcome State Fault Refusal :=
  answer s (onLane stop 4 none (setFreeze false stop) s)

/-- A core's counters are copied to their shadows (R666). -/
def coreSnapshot (tag n : Nat) (s : State) : State :=
  s.modCore n fun c =>
    let c := (List.range 8).foldl (fun c i => c.setErg (0x58 + i) (c.erg (0x50 + i))) c
    (c.setErg 0x43 (c.erg 0x40)).setErg 0x44 (w64 (16 + tag))

/-- An uncore block's counters are copied to their shadows (R666). -/
def uncSnapshot (tag b : Nat) (s : State) : State :=
  let s := (List.range 4).foldl (fun s i => s.setReg .UNC_SHD (s.reg .UNC_CNT b i) b i) s
  (s.setReg .UNC_CYCSHD (s.reg .UNC_CYC b) b).setReg .UNC_SHTAG (w64 (16 + tag)) b

/-- The island of a stop applies a snapshot. -/
def stopSnapshot (tag stop : Nat) (s : State) : State :=
  let s := (s.setReg .PRB_SHD (s.reg .PRB_CNT stop) stop).setReg .PRB_SHTAG (w64 (16 + tag)) stop
  let s := (countingCores s stop).foldl (fun s n => coreSnapshot tag n s) s
  match stopKind stop with
  | some (0, t) => uncSnapshot tag (uncBase (.tile t)) s
  | some (1, n) => uncSnapshot tag (uncBase (.mc n)) s
  | some (2, n) => uncSnapshot tag (uncBase (.io n)) s
  | _ => s

/-- SNAPSHOT_MESSAGE (R666). -/
def execSnapshotMessage (stop : Nat) (tag : BitVec 4) (s : State) : Host.Outcome State Fault Refusal :=
  answer s (onLane stop 3 (some tag.toNat) (stopSnapshot tag.toNat stop) s)

end Sys2Proof.Machine
end

