-- ==== Sys2Proof/Machine/Interrupts.lean ====
section
/-! DEFINITION. Interrupt delivery: Intr messages, X_VSEND, doorbell pages and moves of held entries (14.1). -/

namespace Sys2Proof.Machine

/-- The bank code of a controller in an Intr message (X_VSEND.bank), and its partition. -/
def intrBank : Controller → Nat × Nat
  | .openK => (0, 0)
  | .openH => (1, 0)
  | .sealedK p => (2, p)

/-- INTR (R579, R581): a delivery reaches core `n`: one on its way, or, when none like it is, one that the stop sends now. -/
def execIntr (src n : Nat) (c : Controller) (vec : Nat) (s : State) : Host.Outcome State Fault Refusal :=
  let b := intrBank c
  let mine := fun (p : Packet) => p.op == .Intr && p.src == src && decide (p.to_ = .core n) && p.key == b.1 && p.addr == b.2 &&
    p.arg == vec % 256
  answer s (if (stopKind src).isNone then s
    else if !coreInService s n then deliver src n c vec s
    else if s.fab.net.any mine then arriveReq mine (fun _ s => deliver src n c vec s) s
    else match s.regF .NI_PORT 2 0 (coreStop n) with
      | 0 => deliver src n c vec s
      | 1 => s.setRegF .NI_PORT 2 0 2 (coreStop n)
      | _ => s)

/-- X_VSEND (R580): an MTS to X_VSEND of the K or H field with a value. -/
def execXVsend (n : Nat) (lvlH : Bool) (v : W64) (s : State) : Host.Outcome State Fault Refusal :=
  answer s (onCoreOr n 7 (fun c => match sysFault c (if lvlH then 2 else 1) 0x2A true with
      | some code => some code
      | none => if vsendBad c lvlH v then some 2 else none)
    (fun s => let c := s.core n; retireSys n c (vsend n lvlH v s)) s)

/-- A write of `size` bytes at an offset of a doorbell page of core `n` (R583): 4 bytes at offset 0 deliver; any other, and one to
the sealed page by another requester than CX0, is ignored and logged. -/
def coreDoorbell (r : Req) (n : Nat) (c : Controller) (off size : Nat) (v : W32) (s : State) : State :=
  let w := zext v
  let isSealed : Bool := match c with | .sealedK _ => true | _ => false
  if off ≠ 0 ∨ size ≠ 4 ∨ (isSealed ∧ r ≠ .cx 0) then refuse (.fabric (coreStop n)) (coreStop n) r s
  else deliver (reqStop r) n (if isSealed then .sealedK (fld w 28 16) else c) (fld w 7 0) s

/-- CORE_DOORBELL_WRITE (R583). -/
def execCoreDoorbellWrite (r : Req) (n : Nat) (c : Controller) (off size : Nat) (v : W32) (s : State) :
    Host.Outcome State Fault Refusal :=
  answer s (if 144 ≤ n then s else coreDoorbell r n c off size v s)

/-- H_VHELDP_MOVE (R581): an MTS to H_VHELDPk. -/
def execHVheldpMove (n entry : Nat) (v : W64) (s : State) : Host.Outcome State Fault Refusal :=
  answer s (if 16 ≤ entry then s
    else onCoreOr n 7 (fun c => sysFault c 2 (0x30 + entry) true)
      (fun s => let c := s.core n; retireSys n c (moveHeld n entry v s)) s)

end Sys2Proof.Machine
end

