-- ==== Sys2Proof/Machine/Tlb.lean ====
section
/-! DEFINITION. Broadcast removal of translations: TLBI, POT_INV and IOTU_INV (03.6, 03.8, 13.4). -/

namespace Sys2Proof.Machine

/-! ## Units and stops -/

/-- The stop of a unit that holds translations. -/
def unitStop : XlUnit → Nat
  | .core n => coreStop n
  | .cx k => svStop k
  | .iotu n => ioStop n
  | .sweep e => mcStop e

/-- Whether a unit exists. -/
def unitThere : XlUnit → Bool
  | .core n => decide (n < 144)
  | .cx k => decide (k < 4)
  | .iotu n => decide (n < 12)
  | .sweep e => decide (e < 16)

/-- Whether an access begun under the translations of a unit is still under way: it completes first (R120, R126). -/
def unitBusy (s : State) : XlUnit → Bool
  | .core n => (match (s.core n).wait with
    | some w => (match w.phase with | .dev _ | .line _ => true | _ => false)
    | none => false)
  | .cx k => (s.pair k).wait.isSome
  | _ => false

/-- Removes the translations of a unit that a test selects. -/
def dropXlate (u : XlUnit) (q : TlbEnt → Bool) (s : State) : State :=
  match u with
  | .core n => tlbDrop n q s
  | .cx _ => s
  | .iotu n => s.modIo n fun x => { x with tlb := x.tlb.filter fun e => !q e }
  | .sweep e => s.modEngine e fun x => { x with tlb := x.tlb.filter fun t => !q t }

/-! ## What each broadcast removes -/

/-- Whether a TLB entry covers a physical page. -/
def coversPage (pa : Nat) (e : TlbEnt) : Bool := pa / 2 ^ e.size == e.pa / 2 ^ e.size

/-- The regime an IOTU_INV value names (Table 13-12). -/
def invRegime (v : W64) : Regime := if bit v 60 then .part (fld v 31 16) else .guest (fld v 31 16)

/-- The translations an IOTU_INV value removes: of a context, of a context and ASID, of one 4 KiB page of those, or all. -/
def iotuHits (v a : W64) (e : TlbEnt) : Bool :=
  let ctx := decide (e.regime = invRegime v)
  let asid := e.asid == some (fld v 15 0)
  match fld v 62 61 with
  | 0 => ctx
  | 1 => ctx && asid
  | 2 => ctx && asid && e.va / 2 ^ e.size == fld a 56 12 * 4096 % 2 ^ 57 / 2 ^ e.size
  | _ => true

/-- Whether an IOTU_INV value removes a cached context entry: scope 0 those of the context, scope 3 every one (13.4). -/
def ctxHits (v : W64) (e : CtxEnt) : Bool :=
  let w := e.words.getD 0 0
  match fld v 62 61 with
  | 0 => bit w 63 == bit v 60 && fld w 31 16 == fld v 31 16
  | 3 => true
  | _ => false

/-- The effect of a broadcast on one unit. -/
def applyInv (b : Bcast) (u : XlUnit) (s : State) : State :=
  match b.kind with
  | .tlbi => dropXlate u (tlbiHits b.arg b.regime b.a b.b) s
  | .potInv =>
    let s := dropXlate u (coversPage b.a.toNat) s
    (match u with
     | .cx k => s.modPair k fun p => { p with owned := p.owned.filter fun x => x != b.a.toNat / 4096 }
     | _ => s)
  | .iotuInv =>
    let s := dropXlate u (iotuHits b.a b.b) s
    (match u with
     | .iotu n => s.modIo n fun x => { x with ctxs := x.ctxs.filter fun e => !ctxHits b.a e }
     | _ => s)
  | _ => s

/-- The stores of a core begun under its translations complete. -/
def drainFor (u : XlUnit) (s : State) : State :=
  match u with
  | .core n => drainStores n s
  | _ => s

/-- A unit applies a broadcast that has not reached it yet; its stop acknowledges when its last unit has (R120, R126, R546). -/
def takeInv (u : XlUnit) (b : Bcast) (s : State) : State :=
  if unitBusy s u then s
  else
    let s := applyInv b u (drainFor u s)
    let b' := { b with todo := b.todo.filter fun x => x ≠ u }
    let s := s.modFab fun f => { f with bcasts := f.bcasts.map fun x => if x = b then b' else x }
    if b'.todo.any fun x => unitStop x == unitStop u then s else sendAck b' (unitStop u) s

/-- A broadcast from `src` of one of two kinds reaches a unit: the oldest that it has still to apply (R127). -/
def reachUnit (q : BcastKind → Bool) (u : XlUnit) (src : Nat) (s : State) : State :=
  if !unitThere u then s
  else match s.fab.bcasts.find? fun b => q b.kind && b.src == src && b.todo.contains u with
    | none => s
    | some b => atPort (unitStop u) (takeInv u b) s

/-- TLBI_BROADCAST (R126, R127, R546). -/
def execTlbiBroadcast (u : XlUnit) (src : Nat) (s : State) : Host.Outcome State Fault Refusal :=
  answer s (reachUnit (fun k => k == .tlbi || k == .iotuInv) u src s)

/-- POTINV (R120). -/
def execPotinv (u : XlUnit) (s : State) : Host.Outcome State Fault Refusal :=
  answer s (reachUnit (fun k => k == .potInv) u 0x02 s)

/-! ## POT_INV -/

/-- The pairs, IOTUs and Sweep translation units that cache ownership results or translations. -/
def otherUnits : List XlUnit :=
  (List.range 4).map XlUnit.cx ++ (List.range 12).map XlUnit.iotu ++ (List.range 16).map XlUnit.sweep

/-- The broadcasts of a kind that are not over. -/
def bcastOpen (s : State) (k : BcastKind) : Bool := s.fab.bcasts.any fun b => decide (b.kind = k)

/-- The removal of every entry for a page starts, and POT_INV.busy reads 1 (R120). -/
def potInvStart (page : Nat) (s : State) : State :=
  (s.setRegF .POT_INV 0 0 1).modFab fun f => { f with bcasts := f.bcasts ++
    [⟨.potInv, 0x02, .ni, w64 (page % 2 ^ 40 * 4096), 0, 0, .untranslated, (List.range 144).map XlUnit.core ++ otherUnits, allStops⟩] }

/-- A write of POT_INV: CX0 only (R121); it waits while busy is 1 (Table 03-22). -/
def writePotInv (r : Req) (v : W64) (s : State) : State :=
  if r ≠ .cx 0 then refuse (.fabric 0x02) 0x02 r s
  else if bit (s.reg .POT_INV) 0 then s
  else potInvStart (fld v 51 12) s

/-- POT_INV_WRITE (R120, R121). -/
def execPotInvWrite (r : Req) (v : W64) (s : State) : Host.Outcome State Fault Refusal := answer s (writePotInv r v s)

/-- POT_INV_COMPLETE (R120). -/
def execPotInvComplete (s : State) : Host.Outcome State Fault Refusal :=
  answer s (if bcastOpen s .potInv then s else s.setRegF .POT_INV 0 0 0)

/-! ## IOTU_INV (R546, R547) -/

/-- A write of IOTU_INV: world 0 by H, F and CX0, world 1 by CX0 alone; it waits while busy is 1. -/
def writeIotuInv (r : Req) (v : W64) (s : State) : State :=
  if !(r == .cx 0 || (isHF r && !bit v 60)) then refuse (.fabric 0x02) 0x02 r s
  else if bit (s.reg .IOTU_INV) 63 then s
  else
    let units := (List.range 12).map XlUnit.iotu ++ (List.range 16).map XlUnit.sweep
    (s.setRegF .IOTU_INV 63 63 1).modFab fun f => { f with bcasts := f.bcasts ++
      [⟨.iotuInv, 0x02, .ni, v, s.reg .IOTU_INVA, 0, .untranslated, units, units.map unitStop⟩] }

/-- IOTU_INV_WRITE (R546, R547). -/
def execIotuInvWrite (r : Req) (v : W64) (s : State) : Host.Outcome State Fault Refusal := answer s (writeIotuInv r v s)

/-- IOTU_INV_COMPLETE (R546). -/
def execIotuInvComplete (s : State) : Host.Outcome State Fault Refusal :=
  answer s (if bcastOpen s .iotuInv then s else s.setRegF .IOTU_INV 63 63 0)

end Sys2Proof.Machine
end

