-- ==== Sys2Proof/Machine/PartSvc.lean ====
section
/-! DEFINITION. Partition services by CX0: validate, stop and retire (10.9). -/

namespace Sys2Proof.Machine

/-! ## POT entries that CX0 writes (R446) -/

/-- Every entry of the aligned run a page belongs to gets size 0. -/
def splitRun (page : Nat) (s : State) : State :=
  let lo := (potEntry s page).1
  if fld lo 21 20 = 0 then s
  else
    let n := 2 ^ (potSizeLog lo - 12)
    let base := s.regF .POT_BASE 51 30 * 2 ^ 30
    (List.range n).foldl (fun s i =>
      let p := page / n * n + i
      pokeNat (base + p * 16) 0 8 (setFld (potEntry s p).1 21 20 0).toNat s) s

/-- An entry with a state and a key ID, and every other field 0. -/
def potSet (page st key : Nat) (s : State) : State :=
  poke (s.regF .POT_BASE 51 30 * 2 ^ 30 + page * 16) 0 (leBytes 8 (key * 2 ^ 32 + st * 2 ^ 16) ++ leBytes 8 0) s

/-- Whether an address lies in a descriptor page: POT state 3 with key ID 0xFFF (R446). -/
def descPage (s : State) (pa : Nat) : Bool := pageIn s pa 3 && potKey (potEntry s (pa / 4096)).1 == 0xFFF

/-! ## Validation (R446, Table 10-16) -/

/-- The words of a candidate; none when a read returns poison or a non-zero status. -/
def candidate (s : State) (addr : Nat) : Option (List W64) :=
  match decodeAddr s 0x02 addr with
  | .mem _ ch _ =>
    let r := peekBytes s addr 256 0
    if r.2 || (s.mc ch).dead then none else some ((List.range 32).map fun i => w64 (leNat ((r.1.drop (8 * i)).take 8)))
  | _ => none

/-- Whether the fields of a candidate keep to Table 03-13. -/
def candidateOk (w : List W64) : Bool :=
  let a := fun i => w.getD i 0
  fld (a 0) 63 48 == 0x4B50 && fld (a 0) 47 40 == 1 && fld (a 0) 39 32 == 0 && fld (a 0) 31 24 == 0 &&
    decide (1 ≤ fld (a 0) 15 0) && decide (fld (a 0) 15 0 ≤ 4096) && fld (a 1) 63 52 != 0 && fld (a 1) 51 7 == 0 &&
    fld (a 2) 63 52 == 0 && fld (a 2) 11 1 == 0 && fld (a 3) 63 52 == 0 && fld (a 3) 11 0 == 0 && a 5 == 0 &&
    (w.drop 6).all fun x => x == 0

/-- Whether a page lies in the interleave regions in POT state 0. -/
def openPage (s : State) (pa : Nat) : Bool := inRegion s 0x02 pa && pageOpen s pa == some true

/-- The result of op 1, by the order of R446; 0 when every check passes. -/
def validateResult (s : State) (addr dst : Nat) : Nat :=
  let c := candidate s addr
  let save := fun (w : List W64) => fld (w.getD 3 0) 51 12 * 4096
  if !openPage s addr || c.any (fun w => !openPage s (save w)) then 1
  else if dst % 256 ≠ 0 ∨ !(openPage s dst || descPage s dst) ∨
      (descPage s dst && decide (1 ≤ (peek s (descStateAddr dst) 1 0).1) && decide ((peek s (descStateAddr dst) 1 0).1 ≤ 3)) then 2
  else match c with
    | none => 7
    | some w =>
      if !candidateOk w then 3
      else match keySlot s 0 (fld (w.getD 1 0) 63 52) with
        | .loaded _ => if sealedEnabled s then 0 else 5
        | _ => 4

/-- The effects of a validated candidate (R446, steps 1 to 4). -/
def validated (w : List W64) (dst : Nat) (s : State) : State :=
  let save := fld (w.getD 3 0) 51 12
  let slot := fld (w.getD 1 0) 63 52
  let fresh := !descPage s dst
  let s := splitRun save (splitRun (dst / 4096) s)
  let s := if fresh then potSet (dst / 4096) 3 0xFFF s else s
  let s := potSet save 3 0 s
  let s := poke (save * 4096) 0 (List.replicate 4096 0) s
  let w := (w.set 0 (setFld (w.getD 0 0) 39 32 1)).set 1 (setFld (w.getD 1 0) 6 0 (s.regF .KEY_EPOCH 6 0))
  let s := poke dst 0 (w.flatMap fun x => leBytes 8 x.toNat) s
  let s := if fresh then potInvStart (dst / 4096) s else s
  let s := potInvStart save s
  let key : BitVec 512 := match keySlot s 0 slot with | .loaded k => k | _ => 0
  { s with sec := { s.sec with descs := (s.sec.descs.filter fun d => d.1 != dst) ++ [(dst, slot, key)] } }

/-- op 1. -/
def pvValidate (addr dst : Nat) (s : State) : Nat × State :=
  let r := validateResult s addr dst
  match candidate s addr with
  | some w => (r, if r = 0 then validated w dst s else s)
  | none => (r, s)

/-! ## Stop and retire (R447) -/

/-- Whether an address names a descriptor that CX0 validated. -/
def validTarget (s : State) (addr : Nat) : Bool :=
  let r := peek s addr 8 0
  addr % 256 == 0 && descPage s addr && !r.2 && fld (w64 r.1) 63 48 == 0x4B50 && fld (w64 r.1) 47 40 == 1

/-- op 2. -/
def pvStop (addr : Nat) (s : State) : Nat × State :=
  if !validTarget s addr then (6, s)
  else match stopDescriptor addr s with
    | some s => (0, s)
    | none => (6, s)

/-- op 3: the save area is zeroed and its page is open again. -/
def pvRetire (addr : Nat) (s : State) : Nat × State :=
  let st := (peek s (descStateAddr addr) 1 0).1
  if !validTarget s addr || !(st == 1 || st == 4) then (6, s)
  else
    let save := fld (w64 (peek s (addr + 24) 8 0).1) 51 12
    let s := potSet save 0 0 (poke (save * 4096) 0 (List.replicate 4096 0) s)
    let s := potInvStart save (pokeNat (descStateAddr addr) 0 1 0 s)
    (0, { s with sec := { s.sec with descs := s.sec.descs.filter fun d => d.1 != addr } })

/-! ## Requests (R445) -/

/-- A write of PV_REQ (R445): level H only; a request while busy is ignored and sets collide; CX0, which input 1 tells, serves it. -/
def writePvReq (r : Req) (v : W64) (s : State) : State :=
  match r with
  | .core _ .H _ =>
    let op := fld v 1 0
    let addr := fld v 51 8 * 256
    if op = 0 then s.setRegF .PV_REQ 51 8 (fld v 51 8)
    else if bit (s.reg .PV_RSP) 63 then s.setRegF .PV_RSP 62 62 1
    else
      let s := raiseCx 0 1 (s.setRegF .PV_REQ 51 8 (fld v 51 8))
      if !pairAlive s 0 then s.setRegF .PV_RSP 63 63 1
      else
        let x := match op with
          | 1 => pvValidate addr (s.regF .PV_DST 51 8 * 256) s
          | 2 => pvStop addr s
          | _ => pvRetire addr s
        x.2.setRegF .PV_RSP 7 0 x.1
  | _ => refuse (.fabric 0x02) 0x02 r s

/-- A request with an op and an address. -/
def pvRequest (op addr : Nat) : W64 := w64 (addr % 2 ^ 52 / 256 * 256 + op)

/-- PV_VALIDATE (R445, R446). -/
def execPvValidate (r : Req) (addr : Nat) (s : State) : Host.Outcome State Fault Refusal :=
  answer s (writePvReq r (pvRequest 1 addr) s)

/-- PV_STOP (R445, R447). -/
def execPvStop (r : Req) (addr : Nat) (s : State) : Host.Outcome State Fault Refusal :=
  answer s (writePvReq r (pvRequest 2 addr) s)

/-- PV_RETIRE (R445, R447). -/
def execPvRetire (r : Req) (addr : Nat) (s : State) : Host.Outcome State Fault Refusal :=
  answer s (writePvReq r (pvRequest 3 addr) s)

end Sys2Proof.Machine
end

