-- ==== Sys2Proof/Machine/Pins.lean ====
section
/-! DEFINITION. Multifunction pins, GPIO wakes, boundary scan and the PERST_N outputs (15.6, 17.2 to 17.5). -/

namespace Sys2Proof.Machine

/-! ## Multifunction pins (15.6) -/

/-- How many signals function `f` has (Table 15-10). -/
def fnSignals (f : Nat) : Nat := [2, 4, 2, 2, 3, 6, 2, 2, 2, 2].getD f 0

/-- The pins a value of MUX_FN[f] names, in field order. -/
def namedPins (f : Nat) (v : W64) : List Nat := (List.range (fnSignals f)).map fun k => fld v (5 * k + 4) (5 * k)

/-- The function and signal that a pin belongs to; none for a GPIO. -/
def pinDriver (s : State) (pin : Nat) : Option (Nat × Nat) :=
  (List.range 10).findSome? fun f =>
    if bit (s.reg .MUX_FN 0 f) 63 then
      ((List.range (fnSignals f)).find? fun k => fld (s.reg .MUX_FN 0 f) (5 * k + 4) (5 * k) == pin).map fun k => (f, k)
    else none

/-- The requesters of Table 15-12 (R637). -/
def pinWriter (r : Req) : Bool := isF r || r == .cx 0 || r == .cx 3

/-- What a write leaves in MUX_FN[f]: fields beyond the function's signals read 0. -/
def muxWord (f : Nat) (v : W64) : W64 := v &&& w64 (2 ^ 63 + 3 * 2 ^ 56 + (2 ^ (5 * fnSignals f) - 1))

/-- Whether a write of MUX_FN[f] names a pin that another enabled function owns, or one pin twice (R638). -/
def muxConflict (s : State) (f : Nat) (v : W64) : Bool :=
  bit v 63 &&
    ((namedPins f v).any (fun p => match pinDriver s p with | some (g, _) => g != f | none => false) ||
      !decide (namedPins f v).Nodup)

/-- MUX_FN[f] takes a value; every pin whose driver changes begins its two clocks as an input (R639). -/
def setMux (f : Nat) (v : W64) (s : State) : State :=
  let t := s.setReg .MUX_FN (muxWord f v) 0 f
  let changed := (List.range 32).filter fun p => pinDriver s p != pinDriver t p
  { t with pins := { t.pins with switching := (t.pins.switching.filter fun p => !changed.contains p) ++ changed } }

/-- A write of MUX_FN[f] (R637, R638). -/
def writeMux (r : Req) (f : Nat) (v : W64) (s : State) : State :=
  if !pinWriter r || decide (10 ≤ f) then s
  else if bit (s.reg .MUX_STATUS) 63 || muxConflict s f v then (s.setRegF .MUX_STATUS 8 8 1).setRegF .MUX_STATUS 3 0 f
  else setMux f v s

/-- MUX_FN_WRITE (R638). While FUSE_LOCK.group has bit 4 the write is ignored (R634). -/
def execMuxFnWrite (r : Req) (f : Nat) (v : W64) (s : State) : Host.Outcome State Fault Refusal :=
  answer s (if fuseLocked s .MUX_FN then s else writeMux r f v s)

/-- PIN_SWITCH_COMPLETE (R639). -/
def execPinSwitchComplete (pin : Nat) (s : State) : Host.Outcome State Fault Refusal :=
  answer s { s with pins := { s.pins with switching := s.pins.switching.filter fun p => p != pin } }

/-- The pins that GPIO_OUT drives: GPIOs set to outputs, out of the clocks of R639. -/
def drivenPins (s : State) : W64 :=
  (List.range 32).foldl (fun m p =>
    if (pinDriver s p).isNone && bit (s.reg .GPIO_DIR) p && !s.pins.switching.contains p then setBit m p true else m) 0

/-- GPIO_IN: driven pins show GPIO_OUT; every other level comes from the board and is a free value. -/
def gpioIn (s : State) : W64 × State :=
  let d := s.draw
  (((d.1 &&& ~~~(drivenPins s)) ||| (s.reg .GPIO_OUT &&& drivenPins s)) &&& 0xFFFFFFFF, d.2)

/-- GPIO_WAKE (R523): a rising edge on an enabled GPIO pin is a wake of code 1. -/
def execGpioWake (pin : Nat) (s : State) : Host.Outcome State Fault Refusal :=
  answer s (if decide (pin < 32) && bit (s.reg .GPIO_WAKE) pin && (pinDriver s pin).isNone then wake 1 pin s else s)

/-- Whether every write of a PINMUX set would be accepted (R640). A set is one value for MUX_PULL and one for each function. -/
def pinmuxFits (fns : List W64) : Bool :=
  let named := (List.range 10).flatMap fun f => if bit (fns.getD f 0) 63 then namedPins f (fns.getD f 0) else []
  decide named.Nodup

/-- A PINMUX set is applied: MUX_PULL, then MUX_FN[0] to MUX_FN[9] (R640). -/
def applyPinmux (pull : W64) (fns : List W64) (s : State) : State :=
  (List.range 10).foldl (fun s f => setMux f (fns.getD f 0) s) (s.setReg .MUX_PULL pull)

/-! ## Boundary scan (R686) -/

/-- An instruction enters the boundary-scan port; EXTEST, CLAMP and HIGHZ select BYPASS once a main core has been released. -/
def selectJtag (j : Jtag) (s : State) : State :=
  let j := match j with
    | .extest | .clamp | .highz => if s.pins.coreRan then .bypass else j
    | j => j
  if domainUp s 7 then { s with pins := { s.pins with jtag := j } } else s

/-- JTAG_BYPASS (R686). -/
def execJtagBypass (s : State) : Host.Outcome State Fault Refusal := answer s (selectJtag .bypass s)
/-- JTAG_SAMPLE_PRELOAD (R686). -/
def execJtagSamplePreload (s : State) : Host.Outcome State Fault Refusal := answer s (selectJtag .samplePreload s)
/-- JTAG_EXTEST (R686). -/
def execJtagExtest (s : State) : Host.Outcome State Fault Refusal := answer s (selectJtag .extest s)
/-- JTAG_CLAMP (R686). -/
def execJtagClamp (s : State) : Host.Outcome State Fault Refusal := answer s (selectJtag .clamp s)
/-- JTAG_HIGHZ (R686). -/
def execJtagHighz (s : State) : Host.Outcome State Fault Refusal := answer s (selectJtag .highz s)
/-- TEST_LOGIC_RESET (R686): BYPASS is selected. -/
def execTestLogicReset (s : State) : Host.Outcome State Fault Refusal :=
  answer s { s with pins := { s.pins with jtag := .bypass } }

/-! ## PERST_N outputs (R680, R685) -/

/-- Whether IOnn_PERST_N[k] is an output: bit 0 of IO00 and IO01 is an input under their straps (R680). -/
def perstOutput (s : State) (io k : Nat) : Bool := !(k == 0 && decide (io < 2) && bit (s.reg .STRAP_STATUS) (io + 1))

/-- PERST_N_DRIVEN_HIGH (R685): the 100 ms have passed. -/
def execPerstNDrivenHigh (io link : Nat) (s : State) : Host.Outcome State Fault Refusal :=
  answer s (if decide (io < 12) && decide (link < linkCount s io) && perstOutput s io link && islandUp s io && serdesUp s &&
      (persOf s io == 1 || persOf s io == 2 || persOf s io == 3) then
    s.modIo io fun x => { x with perst := x.perst ||| BitVec.ofNat 4 (2 ^ link) }
  else s)

end Sys2Proof.Machine
end

