-- ==== Sys2Proof/Machine/Recovery.lean ====
section
/-! DEFINITION. The recovery registers of the safe configuration (15.5). -/

namespace Sys2Proof.Machine

/-- Bytes of one copy region of the flash (Table 15-1). -/
def copySize : Nat := 0x1000000

/-- R636: the debug port alone, and only in the safe configuration. -/
def recoveryOpen (s : State) (r : Req) : Bool := r == .debug && s.regF .BOOT_STATUS 63 60 == 4

/-- Whether a range lies inside copies A and B. -/
def inCopies (off n : Nat) : Bool := decide (off + n ≤ 2 * copySize)

/-- A command ends: busy reads 0 and err tells how. -/
def recoveryDone (err : Nat) (s : State) : State := s.setReg .BOOT_RCV_CMD (w64 (err * 2 ^ 60))

/-- A write of BOOT_RCV_DATA: 8 bytes, up to 32 times since the last program. -/
def recoveryData (r : Req) (v : W64) (s : State) : State :=
  if recoveryOpen s r && decide (s.boot.page.length < 256) then
    { s with boot := { s.boot with page := s.boot.page ++ leBytes 8 v.toNat } }
  else s

/-- Op 1: the 64 KiB sector at BOOT_RCV_ADDR is erased. -/
def recoveryErase (s : State) : State :=
  let off := s.regF .BOOT_RCV_ADDR 31 0 / 65536 * 65536
  if inCopies off 65536 then recoveryDone 0 (flashErase off 65536 s) else recoveryDone 1 s

/-- Op 2: the page at BOOT_RCV_ADDR is programmed with the buffer, which empties. Programming clears bits of a NOR flash and sets
none. -/
def recoveryProgram (s : State) : State :=
  let off := s.regF .BOOT_RCV_ADDR 31 0 / 256 * 256
  if inCopies off 256 then
    let bs := (flashBytes s off s.boot.page.length).zipWith (fun a b => a &&& b) s.boot.page
    let s := flashPut off bs s
    recoveryDone 0 { s with boot := { s.boot with page := [] } }
  else recoveryDone 1 s

/-- A write of BOOT_RCV_CMD: op 3 is a Cold reset. -/
def recoveryCommand (r : Req) (op : Nat) (s : State) : State :=
  if !recoveryOpen s r then s
  else match op with
    | 1 => recoveryErase s
    | 2 => recoveryProgram s
    | 3 => powerOn (s.reg .STRAP_STATUS &&& 0x1F#64) s
    | _ => s

/-- BOOT_RCV_DATA (R636). -/
def execBootRcvData (r : Req) (v : W64) (s : State) : Host.Outcome State Fault Refusal := answer s (recoveryData r v s)
/-- BOOT_RCV_ERASE (R636). -/
def execBootRcvErase (r : Req) (s : State) : Host.Outcome State Fault Refusal := answer s (recoveryCommand r 1 s)
/-- BOOT_RCV_PROGRAM (R636). -/
def execBootRcvProgram (r : Req) (s : State) : Host.Outcome State Fault Refusal := answer s (recoveryCommand r 2 s)
/-- BOOT_RCV_COLD_RESET (R636). -/
def execBootRcvColdReset (r : Req) (s : State) : Host.Outcome State Fault Refusal := answer s (recoveryCommand r 3 s)

end Sys2Proof.Machine
end

