-- ==== Sys2Proof/Machine/Security.lean ====
section
/-! DEFINITION. Security alarms, debug tokens and random numbers (14.7, 14.8). -/

namespace Sys2Proof.Machine

/-! ## Alarms -/

/-- SECURITY_ALARM (R607 to R610): the sources of one always-on clock. -/
def execSecurityAlarm (sources : Byte) (s : State) : Host.Outcome State Fault Refusal := answer s (fireAlarm sources.toNat s)

/-- ALARM_MESSAGE (R315, R608): the message reaches a memory stop. -/
def execAlarmMessage (mc : Nat) (s : State) : Host.Outcome State Fault Refusal :=
  answer s (match s.fab.lane.find? fun m => m.1 == mcStop mc && m.2.1 == 1 with
    | none => s
    | some m => if mc < 16 then eraseStop mc (s.modFab fun f => { f with lane := f.lane.erase m }) else s)

/-! ## Debug tokens (R611 to R613) -/

/-- Draws of the DRBG: each is a generate call (R615). -/
def drbg (n : Nat) (s : State) : List W64 × State :=
  ((List.range n).map fun i => Config.free64 (s.free + i),
   { s with free := s.free + n, sec := { s.sec with calls := s.sec.calls + n } })

/-- The 256 bytes of the token. -/
def tokenBytes (s : State) : List Byte := (List.range 32).flatMap fun k => leBytes 8 (s.reg .SEC_DBG_TOK 0 k).toNat

/-- The checks of R612. -/
def tokenOk (s : State) : Bool :=
  let t := tokenBytes s
  let w := fun i => s.reg .SEC_DBG_TOK 0 i
  let key := (t.drop 0x40).take 96
  fld (w 0) 63 40 == 0x445401 && fld (w 0) 39 34 == 0 && fld (w 0) 15 0 == 0 && w 1 == 0 &&
    w 2 == Config.deviceId 0 && w 3 == Config.deviceId 1 &&
    (List.range 4).all (fun k => w (4 + k) == s.reg .SEC_DBG_NONCE 0 k) &&
    beNat (sha384 key) == Config.debugKeyHash.toNat &&
    ecdsaOk (beNat (key.take 48), beNat (key.drop 48)) (beNat (sha384 (t.take 0xA0))) (beNat ((t.drop 0xA0).take 48))
      (beNat ((t.drop 0xD0).take 48))

/-- CX0's check of a token, and its fresh nonce. -/
def checkToken (s : State) : State :=
  let ok := tokenOk s
  let w := s.reg .SEC_DBG_TOK 0 0
  let s := if ok then
      ((s.setRegF .SEC_DBG_EN 2 2 (fld w 32 32)).setRegF .SEC_DBG_EN 3 3 (fld w 33 33)).setRegF .SEC_DBG_EN 31 16 (fld w 31 16)
    else s
  let d := drbg 4 s
  let s := (List.range 4).foldl (fun s k => s.setReg .SEC_DBG_NONCE (d.1.getD k 0) 0 k) d.2
  let s := (List.range 32).foldl (fun s k => s.setReg .SEC_DBG_TOK 0 0 k) s
  if ok then s else fireAlarm 0x10 s

/-- A write of SEC_DBG_CMD: the debug port or level F; CX0, which input 2 tells, checks the token. -/
def submitToken (r : Req) (s : State) : State :=
  if !(isF r || r == .debug) then s
  else
    let s := raiseCx 0 2 s
    if pairAlive s 0 then checkToken s else s

/-- DEBUG_TOKEN_SUBMIT (R611 to R613). -/
def execDebugTokenSubmit (r : Req) (s : State) : Host.Outcome State Fault Refusal := answer s (submitToken r s)

/-! ## Random numbers (R614 to R619) -/

/-- The offset of TRNG_OUT in the Chip Register Space. -/
def trngOut : Nat := 0x72 * 2 ^ 24 + 0x5008

/-- Whether a read of TRNG_OUT is one that takes a value: RAND's own, level F, CX0, CX2 (R616). -/
def trngReader (r : Req) : Bool := isF r || r == .cx 0 || r == .cx 2

/-- A value leaves the buffer. -/
def trngTake (s : State) : W64 × State :=
  let d := drbg 1 s
  (d.1.getD 0 0, d.2)

/-- A read of TRNG_OUT: its status and value; none while it waits for the start-up test. Before the first output reads wait; during
recovery they fail at once (R618). -/
def trngRead (permitted : Bool) (r : Req) (s : State) : Option (Nat × W64 × State) :=
  if !permitted then some (4, 0, refuse (.fabric 0x72) 0x72 r s)
  else match s.regF .TRNG_STATUS 1 0 with
    | 1 => (let d := trngTake s; some (0, d.1, d.2))
    | 0 => none
    | _ => some (4, 0, s)

/-- Whether a packet is a read of TRNG_OUT by a requester's unit. -/
def trngPacket (r : Req) (p : Packet) : Bool :=
  p.op == .RegRd && p.addr == trngOut && (match r, p.from_ with
    | .core n _ _, .core m => n == m
    | .cx k, .slot j _ => k == j
    | .debug, .debug => true
    | _, _ => false)

/-- TRNG_OUT_READ (R616): the requester's waiting read is answered; without one, the read takes a value or is refused. -/
def execTrngOutRead (r : Req) (s : State) : Host.Outcome State Fault Refusal :=
  answer s (match takePacket (trngPacket r) s with
    | some (p, t) =>
      (match trngRead (p.flag || trngReader r) r t with
       | some x => answerReg p x.1 x.2.1 x.2.2
       | none => s)
    | none => (match trngRead (trngReader r) r s with | some x => x.2.2 | none => s))

/-- The failures that began within the last second. -/
def recentFailures (s : State) : List Nat := s.sec.failures.filter fun t => decide (s.timeUs < t + 1000000)

/-- Every waiting read of TRNG_OUT completes with status 4 (R618). -/
def failReads (s : State) : State :=
  let mine := s.fab.net.filter fun p => p.op == .RegRd && p.addr == trngOut
  mine.foldl (fun s p => answerReg p 4 0 s)
    (s.modFab fun f => { f with net := f.net.filter fun p => !(p.op == .RegRd && p.addr == trngOut) })

/-- TRNG_HEALTH_FAILURE (R618, R619): output stops; the third failure within a second fires source 7. -/
def execTrngHealthFailure (rct : Bool) (s : State) : Host.Outcome State Fault Refusal :=
  answer s (if s.regF .TRNG_STATUS 1 0 = 2 then s
    else
      let s := if rct then s.bumpReg .TRNG_STATUS 47 40 else s.bumpReg .TRNG_STATUS 39 32
      let f := recentFailures s ++ [s.timeUs]
      let s := { s with sec := { s.sec with failures := f } }
      let s := (s.setRegF .TRNG_STATUS 31 24 (min f.length 0xFF)).setRegF .TRNG_STATUS 1 0 2
      let s := raiseCx 0 4 (failReads s)
      if 3 ≤ f.length then fireAlarm 0x80 s else s)

/-- The DRBG has a new seed. -/
def seeded (s : State) : State := { s with sec := { s.sec with calls := 0, seededUs := s.timeUs } }

/-- TRNG_RECOVERY_COMPLETE (R614, R615, R618): output resumes; the reseed after a failure is counted, the first seed is not. -/
def execTrngRecoveryComplete (s : State) : Host.Outcome State Fault Refusal :=
  answer s (match s.regF .TRNG_STATUS 1 0 with
    | 1 => s
    | 2 => seeded ((s.bumpReg .TRNG_STATUS 63 48).setRegF .TRNG_STATUS 1 0 1)
    | _ => seeded (s.setRegF .TRNG_STATUS 1 0 1))

/-- DRBG_RESEED (R615): after 65,536 calls or 10 ms. -/
def execDrbgReseed (s : State) : Host.Outcome State Fault Refusal :=
  answer s (if s.regF .TRNG_STATUS 1 0 = 1 ∧ (65536 ≤ s.sec.calls ∨ s.sec.seededUs + 10000 ≤ s.timeUs) then
      seeded (s.bumpReg .TRNG_STATUS 63 48)
    else s)

end Sys2Proof.Machine
end

