-- ==== Sys2Proof/Machine/Mmio.lean ====
section
/-! DEFINITION. Reads and writes of the Chip Register Space: who may write each register, what a write does beyond its fields, and
the register packets (00.3, 01.3, 06.2). -/

namespace Sys2Proof.Machine

/-! ## Writers -/

/-- What becomes of a write: taken, ignored without error, or ignored and logged in a fabric bank. -/
inductive Permit where
  | yes | no | log (stop : Nat)
  deriving DecidableEq, Repr

/-- Whether a requester is one of some pairs. -/
def isCx (ks : List Nat) : Req → Bool
  | .cx k => ks.contains k
  | _ => false

/-- A CONFIG write: CX0 while BOOT_STATUS.state is 2 (R630). -/
def cfgWrite (s : State) (r : Req) : Bool := r == .cx 0 && s.regF .BOOT_STATUS 63 60 == 2

/-- Who writes a register that does no more than hold its fields. -/
def permit (s : State) (r : Req) (n : RegName) : Permit :=
  let only := fun (b : Bool) => if b then Permit.yes else .no
  let orLog := fun (b : Bool) (stop : Nat) => if b then Permit.yes else .log stop
  match n with
  | .SEC_DBG_EN => only (isF r || isCx [0] r)
  | .SEC_ALM_CFG | .CX3L_POLICY | .MC_DIMM | .KEY_EPOCH => only (isCx [0] r)
  | .SEC_INJ_EN => orLog (isF r || isCx [0] r) 0x02
  | .POT_BASE | .POT_LIMIT => orLog (isCx [0] r) 0x02
  | .PV_DST => orLog (match r with | .core _ .H _ => true | _ => false) 0x02
  | .PWR_PKG_CFG | .PWR_THERM | .FIN_CFG | .FIN_COPY_CTL | .FIN_RNG_SRC | .FIN_RNG_DST | .FIN_RNG_LEN =>
    only (isF r || isCx [1] r || cfgWrite s r)
  | .FIN_RESUME => only (isF r)
  | .FIN_REGION => only (isCx [0] r)
  | .RAS_CFG | .RAS_THR => only (isF r || isCx [2] r || cfgWrite s r)
  | .SYS_IRQ | .MC_LAT_TGT | .IOTU_ROOT | .IOTU_MSI => only (isHF r || isCx [0] r)
  | .SWU_POLICY => orLog (isCx [0] r) 0x7A
  | .CX3_MBIN => only (isHF r)
  | .CX3_MBOUT => only (isCx [3] r)
  | .MUX_STATUS | .GPIO_DIR | .GPIO_OUT | .GPIO_WAKE => only (pinWriter r)
  | .MUX_PULL => only (pinWriter r && !bit (s.reg .MUX_STATUS) 63)
  | .TC_FREQ | .TC_CSTATE => only (isHF r || isCx [1] r)
  | .NI_WD_CFG | .MC_SCHED | .MC_RH_CFG | .MC_RAS_CFG | .IO_CTO => only (isF r || isCx [0, 2] r)
  | .ERR_CTL => only (isF r || isCx [2] r)
  | .UNC_CTL | .UNC_SEL | .UNC_CNT | .UNC_CYC => only (isHF r || isCx [0, 2] r)
  | .BOOT_RCV_ADDR => only (recoveryOpen s r)
  | _ => .yes

/-- Whether the RWL fields of a register are fixed (R20). -/
def rwlLocked (s : State) (n : RegName) (u i : Nat) : Bool :=
  match n with
  | .POT_BASE | .POT_LIMIT => bit (s.reg .POT_BASE) 0
  | .FIN_CFG | .FIN_COPY_CTL | .FIN_RNG_SRC | .FIN_RNG_DST | .FIN_RNG_LEN => bit (s.reg .FIN_CFG) 63
  | .RAS_CFG | .RAS_THR => bit (s.reg .RAS_CFG) 63
  | .SEC_ALM_CFG | .SEC_INJ_EN | .PWR_PKG_CFG | .SWU_POLICY | .CX3L_POLICY | .MUX_STATUS => bit (s.reg n u i) 63
  | .MC_RAS_CFG => bit (s.reg n u) 0
  | _ => false

/-- What follows from a write beyond the fields: cleared counts, the effective timeout, the key table of a record region. -/
def afterWrite (n : RegName) (u : Nat) (old : W64) (s : State) : State :=
  match n with
  | .IO_CTO => updateCto u s
  | .NI_WD_LOG => if bit (s.reg n u) 63 then s else s.setRegF n 31 16 0 u
  | .IOTU_FAULT => if bit (s.reg n u) 63 then s else s.setRegF n 11 0 0 u
  | .FIN_REGION => if bit (s.reg n) 0 && !bit old 0 then zeroTable s else s
  | _ => s

/-- A write of a register that does no more than hold its fields (R17). -/
def writePlain (r : Req) (n : RegName) (u i : Nat) (v : W64) (s : State) : State :=
  match permit s r n with
  | .no => s
  | .log stop => refuse (.fabric stop) stop r s
  | .yes =>
    let old := s.reg n u i
    afterWrite n u old (s.setReg n (n.mergeLocked (rwlLocked s n u i) old v) u i)

/-! ## Registers whose writes act -/

/-- KEY_CMD (Table 07-13). -/
def keyCommand (r : Req) (v : W64) (s : State) : State :=
  let slot := fld v 11 0
  keyWrite r (match fld v 17 16 with
    | 0 => fun s => keyBusy 0 (s.setRegF .KEY_STATUS 9 8 (slotCode s slot))
    | 1 => loadKey slot
    | 2 => fun s => if slot = 0 then keyBusy 1 s else keyBusy 0 (tablePut slot [] (setKey slot .erased s))
    | _ => fun s => keyBusy 0 (eraseAllKeys s)) s

/-- Whether a write of a queue's registers breaks the rules for sealed queues (R338). -/
def sealedQueueBad (s : State) (r : Req) (q : Nat) (n : RegName) (v : W64) : Bool :=
  r != .cx 0 && ((n == .SWQ_CTX && bit v 63) || (n != .SWQ_CFG && bit (qreg s .SWQ_CTX q) 63))

/-- SWQ_CTX, SWQ_GROOT, SWQ_HROOT, SWQ_PSTATE, SWQ_CFG and SWQ_QCB (R338, R339). -/
def writeBinding (r : Req) (q : Nat) (n : RegName) (v : W64) (s : State) : State :=
  queueWrite r q (fun s =>
    if sealedQueueBad s r q n v then refuse (.fabric (mcStop (q / 64))) (mcStop (q / 64)) r s
    else if fld (qreg s .SWQ_CTL q) 1 0 ≠ 0 then s
    else s.writeReg n v (q / 64) (q % 64)) s

/-- SWQ_CTL (R340, R345, R346). -/
def writeQueueCtl (r : Req) (q : Nat) (v : W64) (s : State) : State :=
  queueWrite r q (fun s =>
    let s := if bit v 2 then resetQueue q s else s
    if bit v 0 then enableQueue q s else disableQueue q s) s

/-- SWQ_DB and SWQ_RELDB (R348, R366). -/
def queueDoorbell (q : Nat) (rel : Bool) (v : W64) (s : State) : State :=
  if rel then (if swHalted s then s else releaseHandle q v s)
  else if queueLive s q then s.modQueue q fun x => { x with reading := true } else s

/-- The error bank at a base. -/
def bankOf (base : Nat) : Option BankId :=
  let stop := base >>> 24
  match base % 2 ^ 24, stopKind stop with
  | 0xFF2000, some _ => some (.fabric stop)
  | 0xC01000, some (0, t) => some (.tile t)
  | 0x3FC000, some (0, t) => some (.core (2 * t))
  | 0x7FC000, some (0, t) => some (.core (2 * t + 1))
  | 0x0E0000, some (1, n) => some (.mc n)
  | 0x0E0000, some (2, n) => some (.io n)
  | 0x0E0000, some (3, k) => some (.sv k)
  | _, _ => none

/-- FIN_CFG: its fields while lock is 0 (R464, R634), and force (R460). -/
def writeFinCfg (r : Req) (v : W64) (s : State) : State :=
  let s := if fuseLocked s .FIN_CFG then s else writePlain r .FIN_CFG 0 0 v s
  if bit v 17 && (isF r || r == .cx 1) then startFinish s else s

/-- A write of instance `i` of register `n` in block `u`. -/
def writeMmio (r : Req) (n : RegName) (u i : Nat) (v : W64) (s : State) : State :=
  match n with
  | .FIN_CFG => writeFinCfg r v s
  | n =>
  if fuseLocked s n then s
  else match n with
    | .CCH_MODE => writeMode r v s
    | .SAM_RADDR => writeSam r .RADDR i v s
    | .SAM_RCFG => writeSam r .RCFG i v s
    | .SAM_ABASE => writeSam r .ABASE i v s
    | .SAM_ACFG => writeSam r .ACFG i v s
    | .IOTU_INV => writeIotuInv r v s
    | .POT_INV => writePotInv r v s
    | .PV_REQ => writePvReq r v s
    | .KEY_DATA => keyWrite r (fun s => s.setReg .KEY_DATA v 0 i) s
    | .KEY_CMD => keyCommand r v s
    | .KEY_STATUS => if r ≠ .cx 0 then refuse (.fabric 0x02) 0x02 r s else if bit v 16 then clearKeyCounts s else s
    | .SEC_DBG_TOK => if isF r || r == .debug then s.setReg .SEC_DBG_TOK v 0 i else s
    | .SEC_DBG_CMD => if bit v 0 then submitToken r s else s
    | .ERG_GCTL => writeGctl r (fld v 1 0) s
    | .BOOT_RCV_DATA => recoveryData r v s
    | .BOOT_RCV_CMD => recoveryCommand r (fld v 1 0) s
    | .PWR_DOM_CTL => writeDomCtl r v s
    | .PWR_PKG_REQ => writePkgReq r v s
    | .AO_TIMER => writeAoTimer r v s
    | .PWR_RST => writePwrRst r v s
    | .DB_CFG => writeDbCfg r v s
    | .FIN_CX3 => writeFinCx3 r v s
    | .SWU_SRC => loaderWrite (fun s => s.writeReg .SWU_SRC v) s
    | .SWU_CMD =>
      if fld v 1 0 = 1 ∨ fld v 1 0 = 2 then loaderWrite (loaderCommand r (fld v 1 0) (fld v 25 16)) s else s
    | .CX3L_SRC => if bit (s.reg .CX3L_STATUS) 0 then s.setRegF .CX3L_STATUS 4 4 1 else s.writeReg .CX3L_SRC v
    | .CX3L_CMD => if fld v 1 0 = 1 then cx3Command r s else s
    | .CX3_MBDB => writeMbdb r v s
    | .MUX_FN => writeMux r i v s
    | .CXS_CTL => writeCxs r u v s
    | .TC_WAYDIS0 => if r = .cx 2 then writeWays u false v r s else s
    | .TC_WAYDIS1 => if r = .cx 2 then writeWays u true v r s else s
    | .TC_RST => writeTcRst r u v s
    | .NI_RT => writeRoute r u i v s
    | .PRB_CTL | .PRB_MATCH | .PRB_ALO | .PRB_AHI | .PRB_TRACE | .PRB_STATUS | .PRB_CNT => writeProbe r n u v s
    | .SW_CTL => if swCtlWriter r then (if bit v 0 then runEngine u s else stopEngine u s) else s
    | .SWQ_CTX | .SWQ_GROOT | .SWQ_HROOT | .SWQ_PSTATE | .SWQ_CFG | .SWQ_QCB => writeBinding r (u * 64 + i) n v s
    | .SWQ_CTL => writeQueueCtl r (u * 64 + i) v s
    | .SWQ_IRQA | .SWQ_IRQD => queueWrite r (u * 64 + i) (fun s => s.writeReg n v u i) s
    | .SWQ_DB => queueDoorbell (u * 64 + i) false v s
    | .SWQ_RELDB => queueDoorbell (u * 64 + i) true v s
    | .IO_CFG => writeIoCfg r u v s
    | .IO_RST => writeIoRst r u v s
    | .EP_CTL => writeEpCtl r v s
    | .EP_SEND => writeEpSend r u v s
    | .EP_VF0 => writeEpVf r i false v s
    | .EP_VF1 => writeEpVf r i true v s
    | .EP_RBASE | .EP_RCFG | .EP_RTAIL | .EP_RSTAT => writeRing r n u i v s
    | .EP_MBOX => writeEpMbox i v s
    | .ERR_STATUS => if (isF r || r == .cx 2) && bit v 63 && bit (s.reg n u i) 63 then clearRecord u i s else s
    | .ERR_INJ | .ERR_INJA => (match bankOf u with | some b => writeInj r n b v s | none => s)
    | n => writePlain r n u i v s

/-! ## Reads -/

/-- What a read of a register returns: its fields, or what the machine counts or samples at that moment. IO1 shows the endpoint
registers of IO0. -/
def readMmio (n : RegName) (u i : Nat) (s : State) : W64 × State :=
  match n with
  | .TC_DIRTY =>
    (w64 (dirtyCount s (.l3 u) * 2 ^ 32 + dirtyCount s (.l2 (2 * u + 1)) * 2 ^ 16 + dirtyCount s (.l2 (2 * u))), s)
  | .DB_STATUS => (w64 (overLimit s).toNat, s)
  | .GPIO_IN => gpioIn s
  | .SEC_DEVID => (Config.deviceId i, s)
  | .TRNG_STATUS => (setFld (s.reg n) 31 24 (min (recentFailures s).length 0xFF), s)
  | .EP_CTL => (s.reg n 0, s)
  | .EP_MBOX => (s.reg n 0 i, s)
  | n => (s.reg n u i &&& n.shown, s)

/-! ## Offsets of the Chip Register Space -/

/-- The bits of the bytes a mask enables. -/
def beMask (be : Byte) : W64 :=
  (List.range 8).foldl (fun m k => if be.getLsbD k then m ||| (0xFF#64 <<< (8 * k)) else m) 0

/-- The doorbell page of a core that an offset lies in (R583): its core, its controller and the offset in the page. -/
def doorbellAt (off : Nat) : Option (Nat × Controller × Nat) :=
  match stopKind (off >>> 24) with
  | some (0, t) =>
    let o := off % 2 ^ 24
    let b := o % 0x400000
    if 0x800000 ≤ o ∨ b < 0x3FD000 then none
    else some (2 * t + o / 0x400000, if b < 0x3FE000 then .openK else if b < 0x3FF000 then .openH else .sealedK 0, b % 4096)
  | _ => none

/-- The TCM byte an offset names for CX0, of a pair held in reset (R413). -/
def tcmWindow (s : State) (r : Req) (off : Nat) : Option (Nat × Nat) :=
  match stopKind (off >>> 24) with
  | some (3, k) =>
    let o := off % 2 ^ 24
    if r = .cx 0 ∧ k ≠ 0 ∧ bit (s.reg .CXS_CTL k) 0 ∧ 0x800000 ≤ o ∧ o < 0x880000 then some (k, o - 0x800000) else none
  | _ => none

/-- A write of the enabled bytes of the doubleword at an offset; where no register stands it is ignored (R32). -/
def writeAt (r : Req) (off : Nat) (v : W64) (be : Byte) (s : State) : State :=
  let base := off / 8 * 8
  match doorbellAt base with
  | some (n, c, o) =>
    let lanes := (List.range 8).filter fun k => be.getLsbD k
    (match lanes with
     | [] => s
     | k :: _ => coreDoorbell r n c (o + k) lanes.length ((v >>> (8 * k)).setWidth 32) s)
  | none =>
    match tcmWindow s r base with
    | some (k, o) =>
      (List.range 8).foldl (fun s j => if be.getLsbD j then tcmPut k (o + j) [(v >>> (8 * j)).setWidth 8] s else s) s
    | none =>
      match locate base with
      | none => s
      | some (n, u, i) =>
        let m := beMask be
        if m = 0 then s else writeMmio r n u i ((v &&& m) ||| (s.reg n u i &&& ~~~m &&& n.keeps)) s

/-- The doubleword a read at an offset returns; 0 where no register stands (R32). The trace buffer stands at 0xFF_4000. -/
def readAt (r : Req) (off : Nat) (s : State) : W64 × State :=
  let base := off / 8 * 8
  let o := base % 2 ^ 24
  if 0xFF4000 ≤ o ∧ o < 0xFF8000 then
    let w := NMap.get (0, 0) s.fab.trace ((base >>> 24) * 1024 + (o - 0xFF4000) / 16)
    (if o % 16 = 0 then w.1 else w.2, s)
  else match tcmWindow s r base with
    | some (k, j) => (w64 (leNat ((List.range 8).map fun b => tcmByte s k (j + b))), s)
    | none =>
      match locate base with
      | some (n, u, i) => readMmio n u i s
      | none => (0, s)

/-- Whether an offset lies in the NI of its stop, which answers without its island. -/
def inNi (off : Nat) : Bool := decide (0xFF0000 ≤ off % 2 ^ 24)

/-! ## Packets -/

/-- REGISTER_WRITE (R17): a write of a doubleword by a requester that reaches the register. -/
def execRegisterWrite (r : Req) (addr : Nat) (v : W64) (s : State) : Host.Outcome State Fault Refusal :=
  answer s (if (stopKind (addr >>> 24)).isSome then writeAt r addr v 0xFF s else s)

/-- Whether a packet's unit belongs to a requester. -/
def unitOf (r : Req) : Unit → Bool
  | .core m => (match r with | .core n _ _ => n == m | _ => false)
  | .slot k _ | .pair k | .pairCache k _ => r == .cx k
  | .debug => r == .debug
  | .io n => r == .io n
  | _ => true

/-- A register request in flight with a transaction number, or, when none is, the one that its requester sends now. -/
def withRegRequest (op : Op) (r : Req) (addr tid : Nat) (v : W64) (be : Byte) (f : Packet → State → State) (s : State) : State :=
  let src := reqStop r
  let stop := addr >>> 24
  let off := addr / 8 * 8
  let mine := fun (p : Packet) => p.op == op && p.src == src && p.dst == stop && p.tid == tid && p.addr == off && unitOf r p.from_ &&
    (op == .RegRd || (p.data.setWidth 64 == v && p.mask.setWidth 8 == be))
  let go := fun (s : State) =>
    if inNi off then (match ordered mine s with | some (p, s) => f p s | none => s) else arriveReq mine f s
  if (stopKind stop).isNone || (stopKind src).isNone then s
  else if s.fab.net.any mine then go s
  else if (findOut s src tid).isSome then s
  else
    let p := { mkPacket op src stop tid off 0 .ni .ni with data := v.setWidth 512, mask := be.setWidth 64, arg := 8 }
    go (send p (s.modFab fun b => { b with outs := b.outs ++ [⟨src, tid, .ni, op, off, 0, stop, false, 0⟩] }))

/-- REGRD (R32): a register read reaches its window and is answered. TRNG_OUT answers for itself (R616). -/
def execRegrd (r : Req) (addr : Nat) (tid : Nat) (s : State) : Host.Outcome State Fault Refusal :=
  answer s (withRegRequest .RegRd r addr tid 0 0 (fun p t =>
    if p.addr = trngOut then
      (match trngRead (p.flag || trngReader r) r t with
       | some x => answerReg p x.1 x.2.1 x.2.2
       | none => send p t)
    else
      let x := readAt r p.addr t
      answerReg p 0 x.1 x.2) s)

/-- REGWR (R32): a register write reaches its window and is answered. -/
def execRegwr (r : Req) (addr : Nat) (v : W64) (be : Byte) (tid : Nat) (s : State) : Host.Outcome State Fault Refusal :=
  answer s (withRegRequest .RegWr r addr tid v be (fun p t => answerReg p 0 0 (writeAt r p.addr v be t)) s)

/-- REGCMP (R233, R587, R588): a register completion reaches its requester. -/
def execRegcmp (stop tid : Nat) (s : State) : Host.Outcome State Fault Refusal :=
  answer s (respond .RegCmp [.RegRd, .RegWr] stop tid (fun o p s => match o.who with
    | .core n =>
      if p.status ≠ 0 then abortOut o p.status s
      else if o.op = .RegRd then
        let off := waitOff s n % 8
        deviceArrives n 0 (w64 ((p.data.toNat % 2 ^ 64) >>> (8 * off))) false (crsBase + o.addr + off) 0 s
      else s
    | .slot k i => slotAnswer k i o p s
    | _ => s) s)

end Sys2Proof.Machine
end

