-- ==== Sys2Proof/Machine/BootImage.lean ====
section
/-! DEFINITION. The boot image: copies, records and their checks (15.2). -/

namespace Sys2Proof.Machine

/-- A record of a copy (Table 15-3): type, version, crit, the flash offset of its payload and its length. -/
structure BootRec where
  type : Nat
  ver : Nat
  crit : Bool
  off : Nat
  len : Nat
  deriving DecidableEq, Repr

/-- Where a copy lies (Table 15-1). -/
def copyBase (b : Bool) : Nat := if b then copySize else 0

/-- A word of the flash. -/
def flashWord (s : State) (off : Nat) : W64 := w64 (leNat (flashBytes s off 8))

/-- The bytes from a record's header to the end of its payload. -/
def recBytes (s : State) (r : BootRec) : List Byte := flashBytes s (r.off - 8) (8 + r.len)

/-- The payload of a record. -/
def payload (s : State) (r : BootRec) : List Byte := flashBytes s r.off r.len

/-- Word `k` of a payload. -/
def recWord (s : State) (r : BootRec) (k : Nat) : W64 := flashWord s (r.off + 8 * k)

/-- The `n` records that start at `pos` and end exactly at `stop`; none where code 5 of Table 15-5 applies. -/
def parseRecs (s : State) : Nat → Nat → Nat → Option (List BootRec)
  | 0, pos, stop => if pos = stop then some [] else none
  | n + 1, pos, stop =>
    let w := flashWord s pos
    let len := fld w 31 0
    let next := pos + 8 + (len + 7) / 8 * 8
    if stop < pos + 8 ∨ stop < next ∨ fld w 39 33 ≠ 0 ∨ (flashBytes s (pos + 8 + len) (next - (pos + 8 + len))).any (fun b => b != 0) then
      none
    else (parseRecs s n next stop).map fun rs => ⟨fld w 63 48, fld w 47 40, bit w 32, pos + 8, len⟩ :: rs

/-- A record of a known type and version, which has an effect (R626). -/
def BootRec.known (r : BootRec) : Bool := decide (1 ≤ r.type) && decide (r.type ≤ 9) && r.ver == 1

/-- The first known record of a type. -/
def findRec (rs : List BootRec) (type : Nat) : Option BootRec := rs.find? fun r => r.known && r.type == type

/-- Code 7: how often each type may appear (Table 15-4). -/
def countsBad (rs : List BootRec) : Bool :=
  let n := fun t => (rs.filter fun r => r.known && r.type == t).length
  [3, 6, 7, 9].any (fun t => n t != 1) || [2, 4, 5, 8].any fun t => decide (1 < n t)

/-- The registers that a CONFIG entry may name, and the pass that writes them (Table 15-7). -/
def configPass : RegName → Option Nat
  | .SEC_ALM_CFG | .PWR_PKG_CFG | .PWR_THERM | .DB_CFG | .FIN_CFG | .SWU_POLICY | .CX3L_POLICY | .CCH_CE_CFG | .RAS_CFG | .RAS_THR
  | .MC_RAS_CFG | .CCH_MODE | .NI_WD_CFG | .MC_SCHED | .MC_RH_CFG | .MC_LAT_TGT | .IO_CFG | .IO_CTO | .EP_CTL => some 1
  | .FIN_REGION | .FIN_COPY_CTL | .FIN_RNG_SRC | .FIN_RNG_DST | .FIN_RNG_LEN | .SAM_RADDR | .SAM_RCFG | .SAM_ABASE | .SAM_ACFG
  | .POT_BASE | .POT_LIMIT => some 2
  | _ => none

/-- The register that a CONFIG entry's address names. -/
def configReg (a : W64) : Option (RegName × Nat × Nat) :=
  if a.toNat % 8 ≠ 0 ∨ a.toNat < crsBase ∨ crsBase + 2 ^ 32 ≤ a.toNat then none
  else (locate (a.toNat - crsBase)).filter fun e => (configPass e.1).isSome

/-- The image of a pair and its id, where header and CRC are right (Table 10-17). -/
def pairImage (bs : List Byte) : Option (Nat × List Byte) :=
  let w0 := w64 (bytesNat bs 0 8)
  let n := fld w0 31 0
  let body := bs.drop 64
  if fld w0 63 32 ≠ 0x43580000 ∨ n < 4 ∨ 524288 < n ∨ n % 4 ≠ 0 ∨ bs.length ≠ 64 + n ∨
      (List.range 48).any (fun i => bs.getD (0x10 + i) 0 != 0) ∨ crc32c body ≠ bytesNat bs 8 4 then none
  else some (bytesNat bs 12 4, body)

/-- Whether two domains of a REGULATOR record share a PMBus address and page. -/
def regulatorBad (s : State) (r : BootRec) : Bool :=
  let ws := ((List.range 16).map (recWord s r)).filter fun w => bit w 16
  !decide ((ws.map fun w => (fld w 6 0, fld w 15 8)).Nodup)

/-- Code 8: the content of a record. -/
def contentBad (s : State) (r : BootRec) : Bool :=
  match r.type with
  | 1 => r.len % 24 != 0 || (List.range (r.len / 24)).any fun k => (configReg (recWord s r (3 * k))).isNone
  | 2 => r.len != 88 || !pinmuxFits ((List.range 10).map fun f => recWord s r (1 + f))
  | 3 => r.len != 128 || regulatorBad s r
  | 4 =>
    let w := recWord s r 0
    r.len != 8 || (decide (1 ≤ fld w 23 16) && decide (fld w 23 16 ≤ 47)) || fld w 31 24 != 0 || fld w 63 33 != 0
  | 5 => (match checkModule (payload s r) with | .ok m => r.len != 0x440 + 4 * m.words.length | .error _ => true)
  | 6 | 7 | 8 => (pairImage (payload s r)).isNone
  | _ =>
    let n := r.len - 16
    decide (r.len ≤ 16) || decide (15 * 2 ^ 20 < n) || (recWord s r 0).toNat % 4096 != 0 || (recWord s r 1).toNat % 4 != 0 ||
      decide (n ≤ (recWord s r 1).toNat)

/-- Whether the header of a copy is right (code 2). -/
def headerOk (s : State) (base : Nat) : Bool :=
  let w := flashWord s base
  let v := flashWord s (base + 8)
  let len := fld v 31 0
  fld w 63 40 == 0x424901 && fld w 39 34 == 0 && fld w 31 16 == 0 && decide (1 ≤ fld w 15 0) && decide (fld w 15 0 ≤ 0xFFFE) &&
    fld v 63 48 == 0 && decide (1 ≤ fld v 47 32) && decide (fld v 47 32 ≤ 1024) && decide (0x108 ≤ len) && decide (len ≤ 0x1000000) &&
    len % 8 == 0 && (flashBytes s (base + 0x10) 0x30).all fun b => b == 0

/-- Whether the signing key of a copy is fused, not revoked, and the one whose digest is fused (code 3). -/
def keyOk (s : State) (base : Nat) : Bool :=
  let k := fld (flashWord s base) 33 32
  bit (s.reg .FUSE_LOCK) (52 + k) && !bit (s.reg .FUSE_LOCK) (48 + k) && beNat (sha384 (flashBytes s (base + 0x40) 96)) == (Config.bootKeyHash k).toNat

/-- Whether the signature of a copy verifies (code 4). -/
def signatureOk (s : State) (base : Nat) : Bool :=
  let len := fld (flashWord s (base + 8)) 31 0
  let digest := sha384 (flashBytes s base 0xA0 ++ flashBytes s (base + 0x100) (len - 0x100))
  let at_ := fun off => beNat (flashBytes s (base + off) 48)
  ecdsaOk (at_ 0x40, at_ 0x70) (beNat digest) (at_ 0xA0) (at_ 0xD0)

/-- The records of a copy whose header is right. -/
def copyRecs (s : State) (base : Nat) : Option (List BootRec) :=
  let v := flashWord s (base + 8)
  parseRecs s (fld v 47 32) (base + 0x100) (base + fld v 31 0)

/-- The checks of Table 15-5 on a copy: the code of the first that fails, or 0. -/
def copyCode (s : State) (b : Bool) : Nat :=
  let base := copyBase b
  if !headerOk s base then 2
  else if !keyOk s base then 3
  else if !signatureOk s base then 4
  else match copyRecs s base with
    | none => 5
    | some rs =>
      if rs.any fun r => r.crit && !r.known then 6
      else if countsBad rs then 7
      else if rs.any fun r => r.known && contentBad s r then 8
      else 0

/-- The sequence number of a copy. -/
def copySeq (s : State) (b : Bool) : Nat := fld (flashWord s (copyBase b)) 15 0

end Sys2Proof.Machine
end

