-- ==== Sys2Proof/Machine/BootSeq.lean ====
section
/-! DEFINITION. The boot sequence: reading and choosing a copy, commit, training, release of pairs and cores, and the safe
configuration (15.1 to 15.5, 07.1). -/

namespace Sys2Proof.Machine

/-! ## Safe configuration (R635) -/

/-- The registers that the safe configuration sets to their factory defaults: those a copy or CX0 configures. -/
def configured (r : RegName) : Bool :=
  (configPass r).isSome || decide (r = .MUX_FN) || decide (r = .MUX_PULL) || decide (r = .MUX_STATUS) || decide (r = .MC_DIMM)

/-- Pair `k` is held in reset. -/
def holdPair (k : Nat) (s : State) : State := resetPair k (s.setRegF .CXS_CTL 0 0 1 k)

/-- The part enters the safe configuration: CX1 to CX3 held, no channel trained, an empty map, every configured field and pin at its
factory default. -/
def safeConfiguration (s : State) : State :=
  let s := [1, 2, 3].foldl (fun s k => holdPair k s) s
  let s := if s.fin.catching then { s with fin := { s.fin with catching := false } }.setRegF .FIN_STATUS 63 63 0 else s
  let s := (List.range 10).foldl (fun s f => setMux f (coldAt .MUX_FN 0 f) s) s
  let s := { s with crs := s.crs.filter fun e => (match locate e.1 with
    | some (r, _, _) => !configured r
    | none => true) }
  let s := s.modFab fun f => { f with bcasts := f.bcasts.filter fun b => !decide (b.kind = .samUpd) }
  let s := (List.range 12).foldl (fun s n => s.modIo n fun x => { x with cfg := s.reg .IO_CFG n }) (s.setRegF .SAM_STATUS 0 0 0)
  (installModule none s).setRegF .BOOT_STATUS 63 60 4

/-! ## Reading the copies (R622, R625, R627, R488, R490) -/

/-- A copy is in use: state 1, its sequence number, and the digest of each record (R628). -/
def useCopy (b : Bool) (s : State) : State :=
  let s := ((s.setRegF .BOOT_STATUS 63 60 1).setRegF .BOOT_STATUS 56 56 b.toNat).setRegF .BOOT_STATUS 15 0 (copySeq s b)
  let rs := (copyRecs s (copyBase b)).getD []
  { s with boot := { s.boot with digests := rs.map fun r => sha384 (recBytes s r) } }

/-- The codes of both copies go to BOOT_STATUS, and the one to use is chosen (R627). -/
def chooseCopy (a b : Nat) (s : State) : State :=
  let s := (s.setRegF .BOOT_STATUS 55 48 a).setRegF .BOOT_STATUS 47 40 b
  if a ≠ 0 ∧ b ≠ 0 then safeConfiguration s
  else useCopy (decide (a ≠ 0) || (decide (b = 0) && decide (copySeq s false < copySeq s true))) s

/-- Catch: only the recorded copy is read; where it fails, or has another sequence number, the other copy is checked and the part
boots as from Cold (R488, R490). The code of a copy with another sequence number is a free value. -/
def chooseAtCatch (s : State) : State :=
  let b := bit (s.reg .FIN_STATUS) 50
  let code := copyCode s b
  if code = 0 ∧ copySeq s b = s.regF .FIN_STATUS 31 16 then
    useCopy b ((s.setRegF .BOOT_STATUS 55 48 (if b then 9 else 0)).setRegF .BOOT_STATUS 47 40 (if b then 0 else 9))
  else
    let d := s.draw
    let failed := if code = 0 then 1 + d.1.toNat % 255 else code
    let s := { d.2.setRegF .FIN_STATUS 63 63 0 with keys := [], fin := { s.fin with catching := false } }
    let other := copyCode s (!b)
    if b then chooseCopy other failed s else chooseCopy failed other s

/-- Whether CX0 may begin to read the flash: fuses loaded and good, no test mode, service and pin domains up, nothing read yet. -/
def bootReady (s : State) : Bool :=
  !s.power.off && !s.power.fusing && bit (s.reg .ID_PART) 0 && pairAlive s 0 && s.regF .BOOT_STATUS 63 60 == 0 &&
    !(s.power.stuck.any fun d => decide (d < 8)) && domainUp s 0 && domainUp s 7 && (!finishDone s || s.fin.catching)

/-- BOOT_START (R622, R625 to R627). -/
def execBootStart (s : State) : Host.Outcome State Fault Refusal :=
  answer s (if !bootReady s then s
    else
      let s := s.setRegF .BOOT_STATUS 16 16 (if Config.sfdpOk then 0 else 1)
      if s.fin.catching then chooseAtCatch s else chooseCopy (copyCode s false) (copyCode s true) s)

/-! ## Steps after commit -/

/-- A step of the boot: it goes on, or ends the boot. -/
abbrev BootStep := Except State State

/-- A record of the copy in use is applied when its digest still matches (R628). -/
def useRec (f : BootRec → State → BootStep) (r : Nat × BootRec) (s : State) : BootStep :=
  if s.boot.digests[r.1]? = some (sha384 (recBytes s r.2)) then f r.2 s
  else
    let t := fireAlarm 0x40 s
    .error (if bit (s.reg .SEC_ALM_CFG 0 6) 3 then t else safeConfiguration t)

/-- The known records of one of some types are applied in the order of the copy. -/
def applyTypes (rs : List (Nat × BootRec)) (types : List Nat) (f : BootRec → State → BootStep) (s : State) : BootStep :=
  (rs.filter fun r => r.2.known && types.contains r.2.type).foldlM (fun s r => useRec f r s) s

/-- An image goes into a pair's TCM, and the pair is released (R413, R629). -/
def startPair (k : Nat) (r : BootRec) (s : State) : BootStep :=
  match pairImage (payload s r) with
  | none => .ok s
  | some (_, bs) => .ok ((((tcmPut k 0 bs s).setRegF .CXS_CTL 0 0 0 k)).setPair k (Pair.start k))

/-- An entry of a CONFIG record (R630, R634): locked registers keep their defaults and the refusal is logged; a change of the system
address map is in force at every stop before the next entry. -/
def applyEntry (pass : Nat) (addr mask value : W64) (s : State) : State :=
  match configReg addr with
  | none => s
  | some (n, u, i) =>
    if configPass n ≠ some pass then s
    else if fuseLocked s n then refuse (.sv 0) 0x02 (.cx 0) s
    else
      let s := writeMmio (.cx 0) n u i ((s.reg n u i &&& ~~~mask) ||| (value &&& mask)) s
      (s.fab.bcasts.filter fun b => decide (b.kind = .samUpd)).foldl (fun s b => samDone b s) s

/-- A pass over a CONFIG record. -/
def applyConfig (pass : Nat) (r : BootRec) (s : State) : BootStep :=
  .ok ((List.range (r.len / 24)).foldl (fun s k =>
    applyEntry pass (recWord s r (3 * k)) (recWord s r (3 * k + 1)) (recWord s r (3 * k + 2)) s) s)

/-- A PINMUX record, ignored where fuses lock the pins (R634, R640). -/
def applyPins (r : BootRec) (s : State) : BootStep :=
  .ok (if fuseLocked s .MUX_FN then s else applyPinmux (recWord s r 0) ((List.range 10).map fun f => recWord s r (1 + f)) s)

/-- Pass 1, with PINMUX in its place. -/
def passOne (r : BootRec) (s : State) : BootStep := if r.type = 2 then applyPins r s else applyConfig 1 r s

/-- IO_CFG as it stands after pass 1 comes into force. -/
def startIo (s : State) : State :=
  (List.range 12).foldl (fun s n => s.modIo n fun x => { x with cfg := s.reg .IO_CFG n }) s

/-! ## Training (R272 to R276) -/

/-- Whether Table 07-1 has a module with `dpc` DIMMs on its channel. -/
def dimmOk (m : Config.Dimm) (dpc : Nat) : Bool :=
  m.x4 && decide (m.gib ≤ 256) &&
    ((m.type == 1 && decide (32 ≤ m.gib) && decide (1 ≤ m.ranks) && decide (m.ranks ≤ 8)) ||
     (m.type == 2 && decide (64 ≤ m.gib) && m.ranks == 2 && dpc == 1))

/-- The highest rate Table 07-1 gives a population. -/
def tableRate (m : Config.Dimm) (dpc : Nat) : Nat := if m.type = 2 then 88 else if dpc = 2 then 64 else 80

/-- What stands on a channel: nothing, a supported population with its module and DIMM count, or one that counts as unpopulated. -/
inductive Populated where
  | empty | good (m : Config.Dimm) (dpc : Nat) | bad
  deriving DecidableEq, Repr

/-- The population of a channel (R272, R274). -/
def population (ch : Nat) : Populated :=
  match Config.dimm ch 0, Config.dimm ch 1 with
  | none, none => .empty
  | some m, none | none, some m => if dimmOk m 1 then .good m 1 else .bad
  | some a, some b =>
    if a.type = b.type ∧ a.gib = b.gib ∧ a.ranks = b.ranks ∧ a.x4 = b.x4 ∧ dimmOk a 2 then
      .good { a with rate := min a.rate b.rate } 2
    else .bad

/-- The channels with a supported population, in service; a second module type on the part is not supported (R272). -/
def trainable (s : State) : List (Nat × Config.Dimm × Nat) :=
  let cs := (List.range 16).filterMap fun c =>
    if bit (s.reg .AVAIL_MEM) c then (match population c with | .good m d => some (c, m, d) | _ => none) else none
  match cs with
  | [] => []
  | (_, m, _) :: _ => cs.filter fun e => e.2.1.type == m.type

/-- The JEDEC DDR5 rates from 4800 to 8800 MT/s. -/
def ddr5Rates : List Nat := [48, 52, 56, 60, 64, 68, 72, 76, 80, 84, 88]

/-- The one rate of the part (R273): the highest that every populated channel, every module and the image allow. -/
def runRate (cs : List (Nat × Config.Dimm × Nat)) (limit : Nat) : Nat :=
  let ok := fun (r : Nat) => (cs.all fun e => decide (r ≤ tableRate e.2.1 e.2.2) && decide (r ≤ e.2.1.rate)) && (limit == 0 || decide (r ≤ limit))
  ddr5Rates.foldl (fun m r => if ok r then r else m) 0

/-- A channel has trained: MC_DIMM says what it holds (R276), with 31/32 of the capacity under bank sparing (R281). -/
def setTrained (rate : Nat) (e : Nat × Config.Dimm × Nat) (s : State) : State :=
  let gib := e.2.1.gib * e.2.2
  let usable := if bit (s.reg .MC_RAS_CFG e.1) 32 then gib * 31 / 32 else gib
  let w := w64 (usable * 2 ^ 32 + rate * 2 ^ 24 + (e.2.1.ranks * e.2.2 - 1) * 2 ^ 20 + e.2.2 * 2 ^ 16 + e.2.1.type * 2 ^ 4 + 1)
  let s := (s.setReg .MC_DIMM w e.1).modMc e.1 fun m => { m with selfRefresh := false }
  { s with boot := { s.boot with trained := s.boot.trained ||| (1#16 <<< e.1) } }

/-- A populated channel whose modules Table 07-1 does not allow is logged in its own bank (R274). -/
def logPopulation (n : Nat) (s : State) : State :=
  if population n = .bad then record (.mc n) (mkRec .uncorrected (mcStop n) 0x30 0x08 0) s else s

/-- Training under the MEMORY word: the channels to train, and the rate limit (Table 15-4). -/
def trainChannels (word : W64) (s : State) : State :=
  let s := (List.range 16).foldl (fun s n => logPopulation n s) s
  let cs := trainable s
  let rate := runRate cs (fld word 23 16)
  if rate = 0 then s else (cs.filter fun e => bit word e.1).foldl (fun s e => setTrained rate e s) s

/-- The MEMORY word of a copy; absent, every channel with no limit of its own (Table 15-4). -/
def memoryWord (s : State) (rs : List BootRec) : W64 :=
  match findRec rs 4 with
  | some r => recWord s r 0
  | none => 0x10000FFFF#64

/-! ## Sweep module and entry image (R397, R631) -/

/-- A SWEEP_UCODE record. -/
def applyModule (r : BootRec) (s : State) : BootStep :=
  .ok (match checkModule (payload s r) with | .ok m => installModule (some m) s | .error _ => s)

/-- Whether a load range lies in one interleave region and in pages of POT state 0 (code 10). -/
def loadRangeOk (s : State) (pa len : Nat) : Bool :=
  ((List.range 8).any fun i => match regionRange s i with
    | some (a, b) => decide (a ≤ pa) && decide (pa + len ≤ b)
    | none => false) &&
  (List.range ((pa + len + 4095) / 4096 - pa / 4096)).all fun i => pageOpen s ((pa / 4096 + i) * 4096) == some true

/-- An F_ENTRY record: the image is copied and the boot entry noted, or code 10 ends the boot (R631, R632). -/
def applyEntryImage (r : BootRec) (s : State) : BootStep :=
  let pa := (recWord s r 0).toNat
  let n := r.len - 16
  if loadRangeOk s pa n then
    .ok { poke pa 0 ((payload s r).drop 16) s with boot := { s.boot with entry := pa + (recWord s r 1).toNat } }
  else
    let s := record (.sv 0) { mkRec .fatal 0x02 0x20 0x05 0 with addr := some (w64 (pa % 2 ^ 52)) } s
    let s := if bit (s.reg .BOOT_STATUS) 56 then s.setRegF .BOOT_STATUS 47 40 10 else s.setRegF .BOOT_STATUS 55 48 10
    .error (safeConfiguration s)

/-! ## Commit (R628 to R632) -/

/-- The steps of Table 15-6 from commit to the release of CX3. At Catch the channels keep their training (R489). -/
def commitSteps (rs : List (Nat × BootRec)) (s : State) : BootStep := do
  let s ← applyTypes rs [7] (startPair 2) s
  let s ← applyTypes rs [6] (startPair 1) s
  let s ← applyTypes rs [3] (fun _ s => .ok s) s
  let s ← applyTypes rs [1, 2] passOne s
  let s ← applyTypes rs [4] (fun _ s => .ok s) (startIo s)
  let s ← applyTypes rs [1] (applyConfig 2) (if s.fin.catching then s else trainChannels (memoryWord s (rs.map Prod.snd)) s)
  let s := routeAround s
  let s := if !s.fin.catching && bit (s.reg .FIN_REGION) 0 then zeroTable s else s
  let s ← applyTypes rs [5] applyModule s
  let s ← applyTypes rs [9] applyEntryImage s
  let s ← applyTypes rs [8] (startPair 3) s
  .ok { s with power := { s.power with lost := [] } }

/-- BOOT_COMMIT (R628 to R631). -/
def execBootCommit (s : State) : Host.Outcome State Fault Refusal :=
  answer s (if s.regF .BOOT_STATUS 63 60 != 1 || !pairAlive s 0 || !((List.range 8).all fun d => domainUp s d) then s
    else
      let s := s.setRegF .BOOT_STATUS 63 60 2
      let rs := (copyRecs s (copyBase (bit (s.reg .BOOT_STATUS) 56))).getD []
      match commitSteps ((List.range rs.length).zip rs) s with
      | .ok t => t
      | .error t => t)

/-- CORE_RELEASE (R93, R632): the end of a Cold or Warm boot. -/
def execCoreRelease (s : State) : Host.Outcome State Fault Refusal :=
  answer s (if s.regF .BOOT_STATUS 63 60 != 2 || s.fin.catching || finishDone s then s
    else releaseCores (w64 s.boot.entry) 0 6 (liveCores s) (s.setRegF .BOOT_STATUS 63 60 3))

end Sys2Proof.Machine
end

