-- ==== Sys2Proof/Machine/Debug.lean ====
section
/-! DEFINITION. The debug port: its frames, and halts of main cores (03.9, 17.5). -/

namespace Sys2Proof.Machine

/-! ## Frames (R687, Table 17-8) -/

/-- The response frame of a status and data. -/
def debugResponse (status : Nat) (v : W64) : List Byte :=
  let b := BitVec.ofNat 8 status :: leBytes 8 v.toNat
  b ++ leBytes 4 (crc32c b)

/-- The port answers. -/
def debugAnswer (status : Nat) (v : W64) (s : State) : State := { s with pins := { s.pins with dbgOut := debugResponse status v } }

/-- A register access of the port that has reached the register. -/
def debugAccess (rd : Bool) (off : Nat) (v : W64) (be : Byte) (s : State) : State :=
  if !rd then debugAnswer 0 0 (writeAt .debug off v be s)
  else if off = trngOut then
    (match trngRead (trngReader .debug) .debug s with
     | some x => debugAnswer x.1 x.2.1 x.2.2
     | none => s)
  else
    let x := readAt .debug off s
    debugAnswer 0 x.1 x.2

/-- Whether an offset is a register of the SV1 window that lies in the always-on domain. -/
def alwaysOnReg (off : Nat) : Bool :=
  match locate off with
  | some (n, _, _) => decide (n.place.block = .sv1) && (domainOf n).isNone
  | none => false

/-- A request of the port: over the always-on path until the fabric domain is up, then through SV0's NI. -/
def debugRequest (rd : Bool) (off : Nat) (v : W64) (be : Byte) (s : State) : State :=
  let stop := off >>> 24
  if !domainUp s 1 then (if alwaysOnReg off then debugAccess rd off v be s else debugAnswer 2 0 s)
  else if (stopKind stop).isNone || s.regF .NI_RT 1 0 0x02 stop == 3 then debugAnswer 1 0 (logAbort 0x02 (crsBase + off) s)
  else if inNi off then debugAccess rd off v be s
  else match s.regF .NI_PORT 2 0 stop with
    | 0 => debugAccess rd off v be s
    | 1 => s.setRegF .NI_PORT 2 0 2 stop
    | 2 => s
    | 5 => debugAnswer 3 0 s
    | _ => debugAnswer 2 0 s

/-- A frame of 18 bytes on DBG_D: a bad CRC or an unknown command is answered with status 8 and has no effect. -/
def debugFrame (rd : Bool) (f : List Byte) (s : State) : State :=
  let cmd := (f.getD 0 0).toNat
  if s.pins.dbgPresentN || f.length != 18 || s.power.off then s
  else if crc32c (f.take 14) ≠ leNat (f.drop 14) ∨ (cmd ≠ 1 ∧ cmd ≠ 2) then debugAnswer 8 0 s
  else if rd != (cmd == 1) then s
  else debugRequest rd (leNat ((f.drop 2).take 4) / 8 * 8) (w64 (leNat ((f.drop 6).take 8))) (f.getD 1 0) s

/-- DEBUG_REGRD (R687). -/
def execDebugRegrd (f : List Byte) (s : State) : Host.Outcome State Fault Refusal := answer s (debugFrame true f s)

/-- DEBUG_REGWR (R687). -/
def execDebugRegwr (f : List Byte) (s : State) : Host.Outcome State Fault Refusal := answer s (debugFrame false f s)

/-- DBG_PRESENT_N_CHANGE (R687). -/
def execDbgPresentNChange (high : Bool) (s : State) : Host.Outcome State Fault Refusal :=
  answer s { s with pins := { s.pins with dbgPresentN := high } }

/-! ## Halts (R128, R130, Table 03-24) -/

/-- A core halts at once where its code may be observed; else the request is held until its next partition exit. -/
def debugHalt (n : Nat) (s : State) : State :=
  let c := s.core n
  match c.run with
  | .running | .feather => s.setCore n (if invasive s c then { c with run := .debugHalt } else { c with haltReq := true })
  | _ => s

/-- DEBUG_HALT_REQUEST (R130). -/
def execDebugHaltRequest (n : Nat) (s : State) : Host.Outcome State Fault Refusal :=
  answer s (if n < 144 ∧ !s.pins.dbgPresentN then debugHalt n s else s)

end Sys2Proof.Machine
end

