-- ==== Sys2Proof/Machine/LoadStore.lean ====
section
/-! DEFINITION. Loads and stores of main cores and of Coxswain pairs, and predicated vector accesses (02.6, 02.8, 02.11). -/

namespace Sys2Proof.Machine

/-- The effective address of a MEM-format instruction (R62). -/
def memAddr (c : Core) (rb : RegNo) (disp : BitVec 14) : W64 := c.getG rb.toNat + sext disp
/-- The same on a pair. -/
def cxAddr (p : Pair) (rb : RegNo) (disp : BitVec 14) : Nat := (p.getR rb + disp.signExtend 32).toNat

/-- A load of `size` bytes (Table 02-9); on a pair where `pair`, else ILL. -/
def opLoad (size : Nat) (se pair : Bool) (a : Agent) (rt rb : RegNo) (disp : BitVec 14) (h : Hint) (s : State) :
    Host.Outcome State Fault Refusal :=
  answer s (match a with
    | .core n => onCore n (fun s =>
        issueMem n ⟨.load rt.toNat se, memAddr (s.core n) rb disp, size, h.s, true, false⟩ h.path s) s
    | .cx k =>
      if pair then onPair k [rb] [rt] (fun s => cxLoad k rt (cxAddr (s.pair k) rb disp) size se [] s) s
      else cxIll k s)

/-- A store of the low `size` bytes of rt. -/
def opStore (size : Nat) (pair : Bool) (a : Agent) (rt rb : RegNo) (disp : BitVec 14) (h : Hint) (s : State) :
    Host.Outcome State Fault Refusal :=
  answer s (match a with
    | .core n => onCore n (fun s =>
        let c := s.core n
        issueMem n ⟨.store (byteList size (c.getG rt.toNat).toNat), memAddr c rb disp, size, h.s, true, false⟩ h.path s) s
    | .cx k =>
      if pair then onPair k [rb, rt] [] (fun s =>
        let p := s.pair k
        cxStore k (cxAddr p rb disp) (leBytes size (p.getR rt).toNat) s) s
      else cxIll k s)

/-- A memory instruction a pair lacks: on a main core `op` of the core, ILL when `bad`. -/
def opCoreMem (bad : Bool) (cls : Nat) (op : Core → MemOp) (path : Path) (a : Agent) (s : State) :
    Host.Outcome State Fault Refusal :=
  answer s (match a with
    | .core n => onCore n (fun s => if bad then raise n cls 0x01 s else issueMem n (op (s.core n)) path s) s
    | .cx k => cxIll k s)

/-- The byte lanes of a vector's active elements. -/
def laneMask (esz : BitVec 2) (p : W32) : W32 :=
  BitVec.ofNat 32 ((List.range 32).foldl (fun a i => a + (active esz p (i / eszBytes esz)).toNat * 2 ^ i) 0)

/-- The bytes of a vector by offset, those of the given lanes. -/
def vecBytes (v : W256) (m : W32) : List (Nat × Byte) := (byteList 32 v.toNat).filter fun e => m.getLsbD e.1

/-- LB (R62, R63): byte, sign-extended. -/
def execLb (a : Agent) (rt rb : RegNo) (disp : BitVec 14) (h : Hint) (s : State) :
    Host.Outcome State Fault Refusal :=
  opLoad 1 true true a rt rb disp h s

/-- LBU (R62, R63): byte, zero-extended. -/
def execLbu (a : Agent) (rt rb : RegNo) (disp : BitVec 14) (h : Hint) (s : State) :
    Host.Outcome State Fault Refusal :=
  opLoad 1 false true a rt rb disp h s

/-- LH (R62, R63): 16 bits, sign-extended. -/
def execLh (a : Agent) (rt rb : RegNo) (disp : BitVec 14) (h : Hint) (s : State) :
    Host.Outcome State Fault Refusal :=
  opLoad 2 true true a rt rb disp h s

/-- LHU (R62, R63): 16 bits, zero-extended. -/
def execLhu (a : Agent) (rt rb : RegNo) (disp : BitVec 14) (h : Hint) (s : State) :
    Host.Outcome State Fault Refusal :=
  opLoad 2 false true a rt rb disp h s

/-- LW (R62, R63): 32 bits, sign-extended. -/
def execLw (a : Agent) (rt rb : RegNo) (disp : BitVec 14) (h : Hint) (s : State) :
    Host.Outcome State Fault Refusal :=
  opLoad 4 true true a rt rb disp h s

/-- LWU (R62, R63): 32 bits, zero-extended; ILL on a pair. -/
def execLwu (a : Agent) (rt rb : RegNo) (disp : BitVec 14) (h : Hint) (s : State) :
    Host.Outcome State Fault Refusal :=
  opLoad 4 false false a rt rb disp h s

/-- LD (R62, R63): 64 bits; ILL on a pair. -/
def execLd (a : Agent) (rt rb : RegNo) (disp : BitVec 14) (h : Hint) (s : State) :
    Host.Outcome State Fault Refusal :=
  opLoad 8 false false a rt rb disp h s

/-- LDP (R63, R64): two doublewords into rt and rt + 1; rt odd is ILL. -/
def execLdp (a : Agent) (rt rb : RegNo) (disp : BitVec 14) (h : Hint) (s : State) :
    Host.Outcome State Fault Refusal :=
  opCoreMem (rt.toNat % 2 == 1) 2 (fun c => ⟨.loadPair rt.toNat, memAddr c rb disp, 16, h.s, true, false⟩) h.path a s

/-- SB (R62, R63). -/
def execSb (a : Agent) (rt rb : RegNo) (disp : BitVec 14) (h : Hint) (s : State) :
    Host.Outcome State Fault Refusal :=
  opStore 1 true a rt rb disp h s

/-- SH (R62, R63). -/
def execSh (a : Agent) (rt rb : RegNo) (disp : BitVec 14) (h : Hint) (s : State) :
    Host.Outcome State Fault Refusal :=
  opStore 2 true a rt rb disp h s

/-- SW (R62, R63). -/
def execSw (a : Agent) (rt rb : RegNo) (disp : BitVec 14) (h : Hint) (s : State) :
    Host.Outcome State Fault Refusal :=
  opStore 4 true a rt rb disp h s

/-- SD (R62, R63). -/
def execSd (a : Agent) (rt rb : RegNo) (disp : BitVec 14) (h : Hint) (s : State) :
    Host.Outcome State Fault Refusal :=
  opStore 8 false a rt rb disp h s

/-- SDP (R63, R64): rt and rt + 1; rt odd is ILL. -/
def execSdp (a : Agent) (rt rb : RegNo) (disp : BitVec 14) (h : Hint) (s : State) :
    Host.Outcome State Fault Refusal :=
  opCoreMem (rt.toNat % 2 == 1) 3 (fun c =>
    ⟨.store (byteList 16 ((c.getG rt.toNat).toNat + (c.getG (rt.toNat + 1)).toNat * 2 ^ 64)), memAddr c rb disp, 16, h.s,
      true, false⟩) h.path a s

/-- VLD (R63, R64): 32 bytes of a vector register. -/
def execVld (a : Agent) (rt rb : RegNo) (disp : BitVec 14) (h : Hint) (s : State) :
    Host.Outcome State Fault Refusal :=
  opCoreMem false 2 (fun c => ⟨.loadVec rt.toNat 0xFFFFFFFF#32, memAddr c rb disp, 32, h.s, false, false⟩) h.path a s

/-- VST (R63, R64). -/
def execVst (a : Agent) (rt rb : RegNo) (disp : BitVec 14) (h : Hint) (s : State) :
    Host.Outcome State Fault Refusal :=
  opCoreMem false 3 (fun c =>
    ⟨.store (byteList 32 (c.getV rt.toNat).toNat), memAddr c rb disp, 32, h.s, false, false⟩) h.path a s

/-- VLDM (R79): the active elements. -/
def execVldm (a : Agent) (vd rb : RegNo) (pm : BitVec 3) (esz : BitVec 2) (h : Hint) (s : State) :
    Host.Outcome State Fault Refusal :=
  opCoreMem false 2 (fun c =>
    ⟨.loadVec vd.toNat (laneMask esz (c.getP pm.toNat)), c.getG rb.toNat, 32, h.s, false, false⟩) h.path a s

/-- VSTM (R79): the active elements. -/
def execVstm (a : Agent) (vd rb : RegNo) (pm : BitVec 3) (esz : BitVec 2) (h : Hint) (s : State) :
    Host.Outcome State Fault Refusal :=
  opCoreMem false 3 (fun c =>
    ⟨.store (vecBytes (c.getV vd.toNat) (laneMask esz (c.getP pm.toNat))), c.getG rb.toNat, 32, h.s, false, false⟩) h.path a s

end Sys2Proof.Machine
end

