-- ==== Sys2Proof/Machine/Ucode.lean ====
section
/-! DEFINITION. The words of customer microcode: the sequencer, the datapath and the services (chapter 09). A command names the word
the sequencer executes; it acts when the control store holds that word at the sequencer's address. -/

namespace Sys2Proof.Machine

/-! ## Microwords (Table 09-3) -/

/-- A word of format S. -/
def ucS (op : Nat) (cl : BitVec 2) (d a b : BitVec 4) : W32 :=
  BitVec.ofNat 32 (op * 2 ^ 26 + cl.toNat * 2 ^ 24 + d.toNat * 2 ^ 20 + a.toNat * 2 ^ 16 + b.toNat * 2 ^ 12)
/-- A word of format I. -/
def ucI (op : Nat) (cl : BitVec 2) (d a : BitVec 4) (imm : BitVec 16) : W32 :=
  BitVec.ofNat 32 (op * 2 ^ 26 + cl.toNat * 2 ^ 24 + d.toNat * 2 ^ 20 + a.toNat * 2 ^ 16 + imm.toNat)
/-- A word of format X. -/
def ucX (op : Nat) (cl : BitVec 2) (xd xa xb md ma cond : BitVec 3) (imm : BitVec 6) : W32 :=
  BitVec.ofNat 32 (op * 2 ^ 26 + cl.toNat * 2 ^ 24 + xd.toNat * 2 ^ 21 + xa.toNat * 2 ^ 18 + xb.toNat * 2 ^ 15 + md.toNat * 2 ^ 12
    + ma.toNat * 2 ^ 9 + cond.toNat * 2 ^ 6 + imm.toNat)
/-- A word of format M. -/
def ucM (op : Nat) (cl : BitVec 2) (x : BitVec 3) (s : BitVec 4) (imm : BitVec 15) : W32 :=
  BitVec.ofNat 32 (op * 2 ^ 26 + cl.toNat * 2 ^ 24 + x.toNat * 2 ^ 21 + s.toNat * 2 ^ 17 + imm.toNat * 4)
/-- A word of format B. -/
def ucB (op : Nat) (cl : BitVec 2) (sense annul : Bool) (cbit : BitVec 4) (target : BitVec 14) : W32 :=
  BitVec.ofNat 32 (op * 2 ^ 26 + cl.toNat * 2 ^ 24 + sense.toNat * 2 ^ 23 + annul.toNat * 2 ^ 22 + cbit.toNat * 2 ^ 18
    + target.toNat)
/-- A word of format C. -/
def ucC (op : Nat) (cl : BitVec 2) (n : Nat) : W32 := BitVec.ofNat 32 (op * 2 ^ 26 + cl.toNat * 2 ^ 24 + n % 256)

/-- The word of the R387 fill: FAULT with n = 0x27. -/
def ucFill : W32 := ucC 0x35 0 0x27

/-- The word at an address of the customer region: a word of the module, or the fill beyond it, and everywhere in an engine that
holds no module or has lost it to a parity failure (R387, R406). -/
def ctrlWord (s : State) (e pc : Nat) : W32 :=
  match s.sweep.loader.loaded with
  | some m => if bit (s.reg .SWU_STATUS) (48 + e) && decide (0x3000 ≤ pc) then m.words.getD (pc - 0x3000) ucFill else ucFill
  | none => ucFill

/-! ## The sequencer (R375, R380 to R385) -/

/-- The share whose routine runs on an engine. -/
def ucShare (s : State) (e : Nat) : Option SwShare := (s.engine e).shares.find? fun h => h.uc.phase != .idle

/-- The job ends with a fault at the unit that runs (R330, R405); the routine is over. -/
def ucFault (e : Nat) (h : SwShare) (code : Nat) (s : State) : State :=
  let row := if h.uc.phase = .init then 0 else (h.uc.cols.headD ⟨0, 0, []⟩).firstRow
  failShare e { h with uc := { h.uc with phase := .idle } } code row s

/-- Whether an armed injection gives the next customer word a parity error (R603): kind 2, unit 0x33 of the memory-stop bank. -/
def parityArmed (s : State) (e : Nat) : Bool :=
  let v := s.reg .ERR_INJ (bankBase (.mc e))
  bit v 63 && fld v 58 56 == 2 && fld v 55 48 == 0x33

/-- R406: a word fails its parity: the job ends with UC_WORD, the event is logged, and the engine's region reads as fill. -/
def parityFails (e : Nat) (h : SwShare) (s : State) : State :=
  let s := s.setRegF .ERR_INJ 63 63 0 (bankBase (.mc e))
  let s := record (.mc e) { mkRec .uncorrected (mcStop e) 0x33 0x03 0x27 with inj := true } s
  ucFault e h 0x27 (s.setRegF .SWU_STATUS (48 + e) (48 + e) 0)

/-- The sequencer executes word `w` on engine `e`, when its address holds that word. -/
def onWord (e : Nat) (w : W32) (f : SwShare → SwJob → State → State) (s : State) : State :=
  if !swInService s e || 2 ≤ s.regF .SW_STATUS 1 0 e || swHalted s then s
  else match ucShare s e with
    | none => s
    | some h =>
      match shareJob s h with
      | none => s
      | some j =>
        if ctrlWord s e h.uc.pc ≠ w then s
        else if parityArmed s e then parityFails e h s
        else f h j s

/-- The next address: a branch target once its delay slot has issued, else the word that follows. -/
def Ucode.next (u : Ucode) : Ucode :=
  match u.target with
  | some t => { u with pc := t, target := none }
  | none => { u with pc := u.pc + 1 }

/-- A word that only changes what the sequencer and datapath hold. -/
def ucStep (e : Nat) (w : W32) (f : SwJob → Ucode → Ucode) (s : State) : State :=
  onWord e w (fun h j s => putShare e { h with uc := (f j h.uc).next } s) s

/-- A word that may fault, or changes the share's allocation. -/
def ucTry (e : Nat) (w : W32) (f : SwJob → SwShare → Except Nat SwShare) (s : State) : State :=
  onWord e w (fun h j s => match f j h with
    | .ok h => putShare e { h with uc := h.uc.next } s
    | .error code => ucFault e h code s) s

/-- A word that no delay slot holds (R384). -/
def ucFlow (e : Nat) (w : W32) (f : SwShare → SwJob → State → State) (s : State) : State :=
  onWord e w (fun h j s => if h.uc.target.isSome then s else f h j s) s

/-- A condition bit written, and read: c8 to c14 read 0 and c15 reads 1 (Table 09-2). -/
def Ucode.setC (u : Ucode) (i : Nat) (b : Bool) : Ucode :=
  { u with c := (u.c &&& ~~~(1#8 <<< i)) ||| (if b then 1#8 <<< i else 0) }
def Ucode.getC (u : Ucode) (i : Nat) : Bool := if i = 15 then true else u.c.getLsbD i

/-! ## Scalar words (0x00 to 0x0E) -/

/-- A scalar result, with ZERO (R377). -/
def Ucode.result (u : Ucode) (d : BitVec 4) (v : W64) : Ucode := (u.setS d.toNat v).setC 3 (v == 0)

/-- A scalar operation of format S. -/
def scalarS (op e : Nat) (cl : BitVec 2) (d a b : BitVec 4) (f : W64 → W64 → W64) (s : State) : State :=
  ucStep e (ucS op cl d a b) (fun _ u => u.result d (f (u.getS a.toNat) (u.getS b.toNat))) s

/-- A comparison into c0 to c2 (Table 09-2). -/
def Ucode.compare (u : Ucode) (a b : W64) : Ucode := ((u.setC 0 (a == b)).setC 1 (a.slt b)).setC 2 (a.ult b)

/-- A lane-wise operation of format X. -/
def lanesX (op e : Nat) (cl : BitVec 2) (xd xa xb : BitVec 3) (f : W64 → W64 → W64) (s : State) : State :=
  ucStep e (ucX op cl xd xa xb 0 0 0 0) (fun _ u =>
    u.setX xd.toNat ((List.range 8).map fun i => f (u.lane xa.toNat i) (u.lane xb.toNat i))) s

/-- UCODE_NOP (R379). -/
def execUcodeNop (e : Nat) (cl : BitVec 2) (s : State) : Host.Outcome State Fault Refusal :=
  answer s (ucStep e (ucC 0x00 cl 0) (fun _ u => u) s)

/-- UCODE_ADD (R379, Table 09-4). -/
def execUcodeAdd (e : Nat) (cl : BitVec 2) (d a b : BitVec 4) (s : State) : Host.Outcome State Fault Refusal :=
  answer s (scalarS 0x01 e cl d a b (fun a b => a + b) s)

/-- UCODE_SUB (R379, Table 09-4). -/
def execUcodeSub (e : Nat) (cl : BitVec 2) (d a b : BitVec 4) (s : State) : Host.Outcome State Fault Refusal :=
  answer s (scalarS 0x02 e cl d a b (fun a b => a - b) s)

/-- UCODE_AND (R379, Table 09-4). -/
def execUcodeAnd (e : Nat) (cl : BitVec 2) (d a b : BitVec 4) (s : State) : Host.Outcome State Fault Refusal :=
  answer s (scalarS 0x03 e cl d a b (fun a b => a &&& b) s)

/-- UCODE_OR (R379, Table 09-4). -/
def execUcodeOr (e : Nat) (cl : BitVec 2) (d a b : BitVec 4) (s : State) : Host.Outcome State Fault Refusal :=
  answer s (scalarS 0x04 e cl d a b (fun a b => a ||| b) s)

/-- UCODE_XOR (R379, Table 09-4). -/
def execUcodeXor (e : Nat) (cl : BitVec 2) (d a b : BitVec 4) (s : State) : Host.Outcome State Fault Refusal :=
  answer s (scalarS 0x05 e cl d a b (fun a b => a ^^^ b) s)

/-- UCODE_SHL (R379, Table 09-4). -/
def execUcodeShl (e : Nat) (cl : BitVec 2) (d a b : BitVec 4) (s : State) : Host.Outcome State Fault Refusal :=
  answer s (scalarS 0x06 e cl d a b (fun a b => a <<< (b.toNat % 64)) s)

/-- UCODE_SHR (R379, Table 09-4). -/
def execUcodeShr (e : Nat) (cl : BitVec 2) (d a b : BitVec 4) (s : State) : Host.Outcome State Fault Refusal :=
  answer s (scalarS 0x07 e cl d a b (fun a b => a >>> (b.toNat % 64)) s)

/-- UCODE_SAR (R379, Table 09-4). -/
def execUcodeSar (e : Nat) (cl : BitVec 2) (d a b : BitVec 4) (s : State) : Host.Outcome State Fault Refusal :=
  answer s (scalarS 0x08 e cl d a b (fun a b => a.sshiftRight (b.toNat % 64)) s)

/-- UCODE_MUL (R379, Table 09-4). -/
def execUcodeMul (e : Nat) (cl : BitVec 2) (d a b : BitVec 4) (s : State) : Host.Outcome State Fault Refusal :=
  answer s (scalarS 0x0E e cl d a b (fun a b => a * b) s)

/-- XADD (R379, Table 09-4). -/
def execXadd (e : Nat) (cl : BitVec 2) (xd xa xb : BitVec 3) (s : State) : Host.Outcome State Fault Refusal :=
  answer s (lanesX 0x10 e cl xd xa xb (fun a b => a + b) s)

/-- XSUB (R379, Table 09-4). -/
def execXsub (e : Nat) (cl : BitVec 2) (xd xa xb : BitVec 3) (s : State) : Host.Outcome State Fault Refusal :=
  answer s (lanesX 0x11 e cl xd xa xb (fun a b => a - b) s)

/-- XAND (R379, Table 09-4). -/
def execXand (e : Nat) (cl : BitVec 2) (xd xa xb : BitVec 3) (s : State) : Host.Outcome State Fault Refusal :=
  answer s (lanesX 0x12 e cl xd xa xb (fun a b => a &&& b) s)

/-- XIOR (R379, Table 09-4). -/
def execXior (e : Nat) (cl : BitVec 2) (xd xa xb : BitVec 3) (s : State) : Host.Outcome State Fault Refusal :=
  answer s (lanesX 0x13 e cl xd xa xb (fun a b => a ||| b) s)

/-- XXOR (R379, Table 09-4). -/
def execXxor (e : Nat) (cl : BitVec 2) (xd xa xb : BitVec 3) (s : State) : Host.Outcome State Fault Refusal :=
  answer s (lanesX 0x14 e cl xd xa xb (fun a b => a ^^^ b) s)

/-- XMUL (R379, Table 09-4). -/
def execXmul (e : Nat) (cl : BitVec 2) (xd xa xb : BitVec 3) (s : State) : Host.Outcome State Fault Refusal :=
  answer s (lanesX 0x18 e cl xd xa xb (fun a b => a * b) s)

/-- XSHRI (R379, Table 09-4). -/
def execXshri (e : Nat) (cl : BitVec 2) (xd xa : BitVec 3) (imm : BitVec 6) (s : State) : Host.Outcome State Fault Refusal :=
  answer s (ucStep e (ucX 0x16 cl xd xa 0 0 0 0 imm) (fun _ u =>
    u.setX xd.toNat ((List.range 8).map fun i => let a := u.lane xa.toNat i; a >>> imm.toNat)) s)

/-- XSHLI (R379, Table 09-4). -/
def execXshli (e : Nat) (cl : BitVec 2) (xd xa : BitVec 3) (imm : BitVec 6) (s : State) : Host.Outcome State Fault Refusal :=
  answer s (ucStep e (ucX 0x17 cl xd xa 0 0 0 0 imm) (fun _ u =>
    u.setX xd.toNat ((List.range 8).map fun i => let a := u.lane xa.toNat i; a <<< imm.toNat)) s)

/-- UCODE_ADDI (R379). -/
def execUcodeAddi (e : Nat) (cl : BitVec 2) (d a : BitVec 4) (imm : BitVec 16) (s : State) : Host.Outcome State Fault Refusal :=
  answer s (ucStep e (ucI 0x09 cl d a imm) (fun _ u => u.result d (u.getS a.toNat + sext imm)) s)

/-- UCODE_MOVK (R379). -/
def execUcodeMovk (e : Nat) (cl : BitVec 2) (d : BitVec 4) (k : BitVec 2) (imm : BitVec 16) (s : State) :
    Host.Outcome State Fault Refusal :=
  answer s (ucStep e (ucI 0x0A cl d (k.setWidth 4) imm) (fun _ u =>
    u.result d (setFld (u.getS d.toNat) (16 * k.toNat + 15) (16 * k.toNat) imm.toNat)) s)

/-- UCODE_CMP (R377). -/
def execUcodeCmp (e : Nat) (cl : BitVec 2) (a b : BitVec 4) (s : State) : Host.Outcome State Fault Refusal :=
  answer s (ucStep e (ucS 0x0B cl 0 a b) (fun _ u => u.compare (u.getS a.toNat) (u.getS b.toNat)) s)

/-- UCODE_CMPI (R377). -/
def execUcodeCmpi (e : Nat) (cl : BitVec 2) (a : BitVec 4) (imm : BitVec 16) (s : State) : Host.Outcome State Fault Refusal :=
  answer s (ucStep e (ucI 0x0C cl 0 a imm) (fun _ u => u.compare (u.getS a.toNat) (sext imm)) s)

/-- A parameter of PARAM. -/
def ucParam (e : Nat) (j : SwJob) (p : Nat) : W64 :=
  match p with
  | 0 => j.a
  | 1 => j.b
  | 2 => w64 (j.n - 1)
  | 3 => w64 (fld (j.dw 7) 7 0)
  | 4 => w64 j.ncols
  | 5 => w64 (j.signed.toNat + 2 * j.negate.toNat)
  | 6 => w64 e
  | 7 => w64 j.seq
  | _ => 0

/-- UCODE_PARAM (R379). -/
def execUcodeParam (e : Nat) (cl : BitVec 2) (d : BitVec 4) (p : BitVec 16) (s : State) : Host.Outcome State Fault Refusal :=
  answer s (ucStep e (ucI 0x0D cl d 0 p) (fun j u => u.setS d.toNat (ucParam e j p.toNat)) s)

/-! ## Masks and lanes -/

/-- The lanes where `f` holds, as a mask. -/
def ucMask (f : Nat → Bool) : Byte := BitVec.ofNat 8 ((List.range 8).foldl (fun a i => if f i then a + 2 ^ i else a) 0)

/-- XCMP (R377): c4 and c5 follow the mask written. -/
def execXcmp (e : Nat) (cl : BitVec 2) (md xa xb ma cond : BitVec 3) (s : State) : Host.Outcome State Fault Refusal :=
  answer s (ucStep e (ucX 0x19 cl 0 xa xb md ma cond 0) (fun _ u =>
    let g := u.getM ma.toNat
    let r := ucMask fun i => g.getLsbD i && condHolds cond (u.lane xa.toNat i) (u.lane xb.toNat i)
    ((u.setM md.toNat r).setC 4 (r == 0)).setC 5 (r == g)) s)

/-- MOP (R377). -/
def execMop (e : Nat) (cl : BitVec 2) (md ma mb : BitVec 3) (op : BitVec 2) (s : State) : Host.Outcome State Fault Refusal :=
  answer s (ucStep e (ucX 0x1A cl 0 0 mb md ma 0 (op.setWidth 6)) (fun _ u =>
    let a := u.getM ma.toNat
    let b := u.getM mb.toNat
    let r : Byte := match op.toNat with
      | 0 => a &&& b
      | 1 => a ||| b
      | 2 => a ^^^ b
      | _ => a &&& ~~~b
    ((u.setM md.toNat r).setC 4 (r == 0)).setC 5 (r == 0xFF)) s)

/-- XSEL (R379). -/
def execXsel (e : Nat) (cl : BitVec 2) (xd xa xb ma : BitVec 3) (s : State) : Host.Outcome State Fault Refusal :=
  answer s (ucStep e (ucX 0x1B cl xd xa xb 0 ma 0 0) (fun _ u => u.setX xd.toNat ((List.range 8).map fun i =>
    if (u.getM ma.toNat).getLsbD i then u.lane xa.toNat i else u.lane xb.toNat i)) s)

/-- XBCAST (R379). -/
def execXbcast (e : Nat) (cl : BitVec 2) (xd : BitVec 3) (sr : BitVec 4) (s : State) : Host.Outcome State Fault Refusal :=
  answer s (ucStep e (ucX 0x1C cl xd 0 0 0 0 0 (sr.setWidth 6)) (fun _ u =>
    u.setX xd.toNat (List.replicate 8 (u.getS sr.toNat))) s)

/-- XEXT (R379). -/
def execXext (e : Nat) (cl : BitVec 2) (sr : BitVec 4) (xa lane : BitVec 3) (s : State) : Host.Outcome State Fault Refusal :=
  answer s (ucStep e (ucX 0x1D cl 0 xa lane 0 0 0 (sr.setWidth 6)) (fun _ u => u.setS sr.toNat (u.lane xa.toNat lane.toNat)) s)

/-- XCRC (R379). -/
def execXcrc (e : Nat) (cl : BitVec 2) (xd xa : BitVec 3) (s : State) : Host.Outcome State Fault Refusal :=
  answer s (ucStep e (ucX 0x1E cl xd xa 0 0 0 0 0) (fun _ u =>
    u.setX xd.toNat ((List.range 8).map fun i => w64 (crcValue (u.lane xa.toNat i)))) s)

/-! ## The allocation (R400, R405) -/

/-- Bytes of the operator area that a job's allocation has. -/
def allocBytes (s : State) (j : SwJob) : Nat := entBytes (ucEntry s j.op)

/-- Bytes of the allocation, read and written. -/
def SwShare.bytes (h : SwShare) (off n : Nat) : List Byte := (List.range n).map fun i => NMap.get 0 h.scratch (off + i)
def SwShare.putBytes (h : SwShare) (off : Nat) (bs : List Byte) : SwShare :=
  { h with scratch := (bs.foldl (fun (acc : Nat × NMap Byte) b => (acc.1 + 1, NMap.set 0 acc.2 acc.1 b)) (off, h.scratch)).2 }

/-- A word that reaches into the allocation: a range outside it ends the job with UC_SCRATCH. -/
def ucScratch (e : Nat) (w : W32) (ok : SwJob → Ucode → Nat → Bool) (f : SwJob → SwShare → SwShare) (s : State) : State :=
  ucTry e w (fun j h => if ok j h.uc (allocBytes s j) then .ok (f j h) else .error 0x21) s

/-- XGATH (R379, R405): no lane reaches outside the allocation; offsets do not wrap. -/
def execXgath (e : Nat) (cl : BitVec 2) (xd xa ma : BitVec 3) (sr : BitVec 4) (s : State) : Host.Outcome State Fault Refusal :=
  answer s (ucScratch e (ucX 0x1F cl xd xa 0 0 ma 0 (sr.setWidth 6))
    (fun _ u n => (List.range 8).all fun i => !(u.getM ma.toNat).getLsbD i ||
      decide ((u.getS sr.toNat).toNat + 8 * (u.lane xa.toNat i).toNat + 8 ≤ n))
    (fun _ h => { h with uc := h.uc.setX xd.toNat ((List.range 8).map fun i =>
      if (h.uc.getM ma.toNat).getLsbD i then
        w64 (leNat (h.bytes ((h.uc.getS sr.toNat).toNat + 8 * (h.uc.lane xa.toNat i).toNat) 8))
      else 0) }) s)

/-- The operator offset of LDS and STS. -/
def ldsOff (u : Ucode) (sr : BitVec 4) (imm : BitVec 15) : Nat := (u.getS sr.toNat).toNat + 64 * imm.toNat

/-- UCODE_LDS (R379, R405). -/
def execUcodeLds (e : Nat) (cl : BitVec 2) (x : BitVec 3) (sr : BitVec 4) (imm : BitVec 15) (s : State) :
    Host.Outcome State Fault Refusal :=
  answer s (ucScratch e (ucM 0x24 cl x sr imm) (fun _ u n => decide (ldsOff u sr imm + 64 ≤ n))
    (fun _ h => { h with uc := h.uc.setX x.toNat ((List.range 8).map fun i =>
      w64 (leNat (h.bytes (ldsOff h.uc sr imm + 8 * i) 8))) }) s)

/-- UCODE_STS (R379, R405). -/
def execUcodeSts (e : Nat) (cl : BitVec 2) (x : BitVec 3) (sr : BitVec 4) (imm : BitVec 15) (s : State) :
    Host.Outcome State Fault Refusal :=
  answer s (ucScratch e (ucM 0x25 cl x sr imm) (fun _ u n => decide (ldsOff u sr imm + 64 ≤ n))
    (fun _ h => h.putBytes (ldsOff h.uc sr imm) ((List.range 8).flatMap fun i => leBytes 8 (h.uc.lane x.toNat i).toNat)) s)

/-! ## Input and output (R403, Table 09-11) -/

/-- Whether a body of kind 1 runs. -/
def inUnitBody (s : State) (j : SwJob) (u : Ucode) : Bool := u.phase == .body && entKind (ucEntry s j.op) == 1

/-- UCODE_IN (R377): the next group of a column. Beyond the last group, or for a column the job does not have, no lane is valid. -/
def execUcodeIn (e : Nat) (cl : BitVec 2) (xd : BitVec 3) (col : BitVec 2) (s : State) : Host.Outcome State Fault Refusal :=
  answer s (ucTry e (ucX 0x20 cl xd 0 0 0 0 0 (col.setWidth 6)) (fun j h =>
    let u := h.uc
    if !inUnitBody s j u then .error 0x24
    else
      let c := u.cols.getD col.toNat ⟨0, 0, []⟩
      let g := NMap.get 0 u.groups col.toNat
      let l := groupLanes c g
      let u := ((u.setX xd.toNat l.1).setM 7 l.2).setC 6 (decide (c.rows ≤ 8 * (g + 1)))
      let u := { u with groups := NMap.set 0 u.groups col.toNat (g + 1) }
      .ok { h with uc := if col = 0 then { u with lane0 := some (8 * g), lanes := l.2 } else u }) s)

/-- SEL (R403): rows of the last group of column 0. -/
def execSel (e : Nat) (cl : BitVec 2) (ma : BitVec 3) (s : State) : Host.Outcome State Fault Refusal :=
  answer s (ucTry e (ucX 0x21 cl 0 0 0 0 ma 0 0) (fun j h =>
    let u := h.uc
    if !inUnitBody s j u || j.outForm == 4 then .error 0x24
    else
      let m := u.getM ma.toNat &&& u.lanes
      let rows := ((List.range 8).filter fun i => m.getLsbD i).map fun i => SwItem.row (u.lane0.getD 0 + i)
      .ok { h with uc := { u with out := u.out ++ rows } }) s)

/-- PUTV (R403). -/
def execPutv (e : Nat) (cl : BitVec 2) (xa ma : BitVec 3) (s : State) : Host.Outcome State Fault Refusal :=
  answer s (ucTry e (ucX 0x22 cl 0 xa 0 0 ma 0 0) (fun j h =>
    let u := h.uc
    if !inUnitBody s j u || decide (j.outForm < 4) then .error 0x24
    else
      let vs := ((List.range 8).filter fun i => (u.getM ma.toNat).getLsbD i).map fun i => SwItem.value (u.lane xa.toNat i)
      .ok { h with uc := { u with out := u.out ++ vs } }) s)

/-! ## Control flow (R382 to R385) -/

/-- UCODE_BR (R382, R383): an annulled delay slot is cancelled when the branch is not taken. -/
def execUcodeBr (e : Nat) (cl : BitVec 2) (sense annul : Bool) (cbit : BitVec 4) (target : BitVec 14) (s : State) :
    Host.Outcome State Fault Refusal :=
  answer s (ucFlow e (ucB 0x30 cl sense annul cbit target) (fun h _ s =>
    let u := h.uc
    let u := if u.getC cbit.toNat == sense then { u with pc := u.pc + 1, target := some target.toNat }
      else { u with pc := u.pc + (if annul then 2 else 1) }
    putShare e { h with uc := u } s) s)

/-- UCODE_CALL (R385). -/
def execUcodeCall (e : Nat) (cl : BitVec 2) (target : BitVec 14) (s : State) : Host.Outcome State Fault Refusal :=
  answer s (ucFlow e (ucB 0x31 cl true false 15 target) (fun h _ s =>
    let u := h.uc
    if 8 ≤ u.link.length then ucFault e h 0x23 s
    else putShare e { h with uc := { u with link := (u.pc + 2) :: u.link, pc := u.pc + 1, target := some target.toNat } } s) s)

/-- UCODE_RET (R385). -/
def execUcodeRet (e : Nat) (cl : BitVec 2) (s : State) : Host.Outcome State Fault Refusal :=
  answer s (ucFlow e (ucC 0x32 cl 0) (fun h _ s =>
    match h.uc.link with
    | [] => ucFault e h 0x23 s
    | r :: rest => putShare e { h with uc := { h.uc with link := rest, pc := h.uc.pc + 1, target := some r } } s) s)

/-- What a customer unit puts out (R402, R403). -/
def ucOut (j : SwJob) (u : Ucode) : List OutStep :=
  let rows := u.out.filterMap fun x => match x with | .row r => some r | _ => none
  if j.outForm ≤ 1 then (if j.outForm = 1 then j.scanOut u.cols rows else [])
  else u.out.flatMap fun x => match x with
    | .row r => j.rowOut u.cols r
    | .value v => [.ent ⟨0, 0, leBytes 8 v.toNat, 1⟩]
    | .flush => [.flush]

/-- The unit of a customer job ends. -/
def ucUnitEnds (e : Nat) (h : SwShare) (j : SwJob) (s : State) : State :=
  let u := h.uc
  let h := { h with uc := { u with phase := .idle } }
  let c0 := u.cols.headD ⟨0, 0, []⟩
  let rows := (u.out.filter fun x => match x with | .row _ => true | _ => false).length
  commitUnit e j h h u.unit c0.firstRow c0.rows (if j.outForm = 0 then rows else 0) (ucOut j u) s s

/-- The rows of a group that a kind 0 body has selected: (m1 XOR negate) AND m7 (R402). -/
def ucSelected (j : SwJob) (u : Ucode) : List SwItem :=
  let m := (u.getM 1 ^^^ (if j.negate then 0xFF else 0)) &&& u.getM 7
  ((List.range 8).filter fun i => m.getLsbD i).map fun i => .row (8 * u.group + i)

/-- UCODE_DONE (R402, R403): init ends at the boundary of the first unit; a kind 0 body goes on with the next group; else the unit
ends. -/
def execUcodeDone (e : Nat) (cl : BitVec 2) (s : State) : Host.Outcome State Fault Refusal :=
  answer s (ucFlow e (ucC 0x34 cl 0) (fun h j s =>
    let u := h.uc
    let ent := ucEntry s j.op
    if u.phase = .init then putShare e { h with uc := { u with phase := .idle } } s
    else if entKind ent = 0 then
      (let u := { u with out := u.out ++ ucSelected j u }
       if 8 * (u.group + 1) < (u.cols.headD ⟨0, 0, []⟩).rows then
         putShare e { h with uc := enterGroup ent (h.ended == 0) (u.group + 1) u } s
       else ucUnitEnds e { h with uc := u } j s)
    else ucUnitEnds e h j s) s)

/-- UCODE_FAULT (R379, R387): the job ends with code n; a word of the fill gives UC_WORD, 0x27. -/
def execUcodeFault (e : Nat) (cl : BitVec 2) (n : Byte) (s : State) : Host.Outcome State Fault Refusal :=
  answer s (ucFlow e (ucC 0x35 cl n.toNat) (fun h _ s => ucFault e h n.toNat s) s)

/-! ## Services (R390, Table 09-9) -/

/-- The word of SVC n. -/
def ucSvc (cl : BitVec 2) (n : Nat) : W32 := ucC 0x33 cl n

/-- A service that touches the allocation alone. -/
def ucService (e : Nat) (cl : BitVec 2) (n : Nat) (ok : Ucode → Nat → Bool) (f : SwShare → SwShare) (s : State) : State :=
  ucFlow e (ucSvc cl n) (fun h j s =>
    if ok h.uc (allocBytes s j) then putShare e { f h with uc := (f h).uc.next } s else ucFault e h 0x21 s) s

/-- A range of the allocation whose bounds are multiples of `k`. -/
def inAlloc (k off n alloc : Nat) : Bool := off % k == 0 && n % k == 0 && decide (off + n ≤ alloc)

/-- LOADA and LOADB: s2 bytes from a base plus s3 to operator offset s1, as a job access. -/
def ucLoad (e : Nat) (cl : BitVec 2) (n : Nat) (base : SwJob → W64) (s : State) : State :=
  ucFlow e (ucSvc cl n) (fun h j s =>
    let u := h.uc
    let va := (base j + u.getS 3).toNat
    let off := (u.getS 1).toNat
    let len := (u.getS 2).toNat
    if !inAlloc 64 off len (allocBytes s j) || va % 64 != 0 then ucFault e h 0x21 s
    else match swRead j.queue e va len none s with
      | .error f => ucFault e h f.code (swLog e f s)
      | .ok (bs, s) => putShare e { h.putBytes off bs with uc := u.next } s) s

/-- LOADA (R390). -/
def execLoada (e : Nat) (cl : BitVec 2) (s : State) : Host.Outcome State Fault Refusal := answer s (ucLoad e cl 0 SwJob.a s)

/-- LOADB (R390). -/
def execLoadb (e : Nat) (cl : BitVec 2) (s : State) : Host.Outcome State Fault Refusal := answer s (ucLoad e cl 1 SwJob.b s)

/-- ROWINFO (R390): both values are 0 in init; before a group of column 0 has been read, the row ID is free (log entry 2). -/
def execRowinfo (e : Nat) (cl : BitVec 2) (s : State) : Host.Outcome State Fault Refusal :=
  answer s (ucFlow e (ucSvc cl 2) (fun h _ s =>
    let u := h.uc
    let c0 := u.cols.headD ⟨0, 0, []⟩
    let put := fun (row rows : W64) (s : State) => putShare e { h with uc := ((u.setS 1 row).setS 2 rows).next } s
    if u.phase = .init then put 0 0 s
    else match u.lane0 with
      | some l => put (w64 (c0.firstRow + l)) (w64 c0.rows) s
      | none => let r := s.draw; put r.1 (w64 c0.rows) r.2) s)

/-- FLUSH (R390): what earlier units have output is published now, and what this unit has output so far as the unit ends, since a
unit that faults publishes nothing (R404). -/
def execFlush (e : Nat) (cl : BitVec 2) (s : State) : Host.Outcome State Fault Refusal :=
  answer s (ucFlow e (ucSvc cl 3) (fun h j s =>
    if entKind (ucEntry s j.op) = 0 then ucFault e h 0x24 s
    else match flushBufs e j h s with
      | .ok (h, s) => putShare e { h with uc := { h.uc with out := h.uc.out ++ [SwItem.flush] }.next } s
      | .error .full => suspendShare e j { h with uc := { h.uc with phase := .idle } } s
      | .error f => ucFault e h f.code (swLog e f s)) s)

/-- ZERO (R390). -/
def execZero (e : Nat) (cl : BitVec 2) (s : State) : Host.Outcome State Fault Refusal :=
  answer s (ucService e cl 4 (fun u n => inAlloc 64 (u.getS 1).toNat (u.getS 2).toNat n)
    (fun h => h.putBytes (h.uc.getS 1).toNat (List.replicate (h.uc.getS 2).toNat 0)) s)

/-- SCRCRC (R390). -/
def execScrcrc (e : Nat) (cl : BitVec 2) (s : State) : Host.Outcome State Fault Refusal :=
  answer s (ucService e cl 5 (fun u n => inAlloc 1 (u.getS 3).toNat (u.getS 2).toNat n)
    (fun h => { h with uc := h.uc.setS 1 (w64 (crc32c (h.bytes (h.uc.getS 3).toNat (h.uc.getS 2).toNat))) }) s)

/-- A number put into an ascending list. -/
def insertNat (x : Nat) : List Nat → List Nat
  | [] => [x]
  | y :: ys => if x ≤ y then x :: y :: ys else y :: insertNat x ys

/-- The 8-byte values of a range, sorted ascending without sign. -/
def sortValues (bs : List Byte) : List Byte :=
  (((List.range (bs.length / 8)).map fun i => bytesNat bs (8 * i) 8).foldr insertNat []).flatMap (leBytes 8)

/-- SORT (R390): more than 65,536 bytes is an argument out of range, as a misaligned one is (log entry 17). -/
def execSort (e : Nat) (cl : BitVec 2) (s : State) : Host.Outcome State Fault Refusal :=
  answer s (ucService e cl 6 (fun u n => inAlloc 8 (u.getS 1).toNat (u.getS 2).toNat n && decide ((u.getS 2).toNat ≤ 65536))
    (fun h => h.putBytes (h.uc.getS 1).toNat (sortValues (h.bytes (h.uc.getS 1).toNat (h.uc.getS 2).toNat))) s)

/-- UNIT_BUDGET_EXPIRY (R405): the routine of a unit, or the init before the first unit, has run for its budget. -/
def execUnitBudgetExpiry (e : Nat) (s : State) : Host.Outcome State Fault Refusal :=
  answer s (match ucShare s e with
    | some h => ucFault e h 0x25 s
    | none => s)

end Sys2Proof.Machine
end

