-- ==== Sys2Proof/Machine/Vector.lean ====
section
/-! DEFINITION. Vector integer and predicate instructions (02.8). -/

namespace Sys2Proof.Machine

/-- Signed and unsigned saturating sums. -/
def addSatS (w : Nat) (x y : BitVec w) : BitVec w :=
  let v := x.toInt + y.toInt
  BitVec.ofInt w (max (-(2 ^ (w - 1))) (min (2 ^ (w - 1) - 1) v))
def addSatU (w : Nat) (x y : BitVec w) : BitVec w := BitVec.ofNat w (min (2 ^ w - 1) (x.toNat + y.toNat))

/-- VADD (R52). -/
def execVadd (a : Agent) (vd vs1 vs2 : RegNo) (pm : BitVec 3) (esz : BitVec 2) (s : State) :
    Host.Outcome State Fault Refusal :=
  opVVV (fun _ x y => x + y) a vd vs1 vs2 pm esz s

/-- VSUB (R52). -/
def execVsub (a : Agent) (vd vs1 vs2 : RegNo) (pm : BitVec 3) (esz : BitVec 2) (s : State) :
    Host.Outcome State Fault Refusal :=
  opVVV (fun _ x y => x - y) a vd vs1 vs2 pm esz s

/-- VMUL (R52): low half. -/
def execVmul (a : Agent) (vd vs1 vs2 : RegNo) (pm : BitVec 3) (esz : BitVec 2) (s : State) :
    Host.Outcome State Fault Refusal :=
  opVVV (fun _ x y => x * y) a vd vs1 vs2 pm esz s

/-- VAND (R52). -/
def execVand (a : Agent) (vd vs1 vs2 : RegNo) (pm : BitVec 3) (esz : BitVec 2) (s : State) :
    Host.Outcome State Fault Refusal :=
  opVVV (fun _ x y => x &&& y) a vd vs1 vs2 pm esz s

/-- VOR (R52). -/
def execVor (a : Agent) (vd vs1 vs2 : RegNo) (pm : BitVec 3) (esz : BitVec 2) (s : State) :
    Host.Outcome State Fault Refusal :=
  opVVV (fun _ x y => x ||| y) a vd vs1 vs2 pm esz s

/-- VXOR (R52). -/
def execVxor (a : Agent) (vd vs1 vs2 : RegNo) (pm : BitVec 3) (esz : BitVec 2) (s : State) :
    Host.Outcome State Fault Refusal :=
  opVVV (fun _ x y => x ^^^ y) a vd vs1 vs2 pm esz s

/-- VANDN (R52). -/
def execVandn (a : Agent) (vd vs1 vs2 : RegNo) (pm : BitVec 3) (esz : BitVec 2) (s : State) :
    Host.Outcome State Fault Refusal :=
  opVVV (fun _ x y => x &&& ~~~y) a vd vs1 vs2 pm esz s

/-- VMIN (R52). -/
def execVmin (a : Agent) (vd vs1 vs2 : RegNo) (pm : BitVec 3) (esz : BitVec 2) (s : State) :
    Host.Outcome State Fault Refusal :=
  opVVV (fun _ x y => minS x y) a vd vs1 vs2 pm esz s

/-- VMAX (R52). -/
def execVmax (a : Agent) (vd vs1 vs2 : RegNo) (pm : BitVec 3) (esz : BitVec 2) (s : State) :
    Host.Outcome State Fault Refusal :=
  opVVV (fun _ x y => maxS x y) a vd vs1 vs2 pm esz s

/-- VMINU (R52). -/
def execVminu (a : Agent) (vd vs1 vs2 : RegNo) (pm : BitVec 3) (esz : BitVec 2) (s : State) :
    Host.Outcome State Fault Refusal :=
  opVVV (fun _ x y => minU x y) a vd vs1 vs2 pm esz s

/-- VMAXU (R52). -/
def execVmaxu (a : Agent) (vd vs1 vs2 : RegNo) (pm : BitVec 3) (esz : BitVec 2) (s : State) :
    Host.Outcome State Fault Refusal :=
  opVVV (fun _ x y => maxU x y) a vd vs1 vs2 pm esz s

/-- VSLL (R52), amounts per element, bits [5:0] (R57). -/
def execVsll (a : Agent) (vd vs1 vs2 : RegNo) (pm : BitVec 3) (esz : BitVec 2) (s : State) :
    Host.Outcome State Fault Refusal :=
  opVVV (fun _ x y => x <<< (y.toNat % 64)) a vd vs1 vs2 pm esz s

/-- VSRL (R52), amounts per element. -/
def execVsrl (a : Agent) (vd vs1 vs2 : RegNo) (pm : BitVec 3) (esz : BitVec 2) (s : State) :
    Host.Outcome State Fault Refusal :=
  opVVV (fun _ x y => x >>> (y.toNat % 64)) a vd vs1 vs2 pm esz s

/-- VSRA (R52), amounts per element. -/
def execVsra (a : Agent) (vd vs1 vs2 : RegNo) (pm : BitVec 3) (esz : BitVec 2) (s : State) :
    Host.Outcome State Fault Refusal :=
  opVVV (fun _ x y => x.sshiftRight (y.toNat % 64)) a vd vs1 vs2 pm esz s

/-- VADDS (R52): signed saturating sum. -/
def execVadds (a : Agent) (vd vs1 vs2 : RegNo) (pm : BitVec 3) (esz : BitVec 2) (s : State) :
    Host.Outcome State Fault Refusal :=
  opVVV addSatS a vd vs1 vs2 pm esz s

/-- VADDUS (R52): unsigned saturating sum. -/
def execVaddus (a : Agent) (vd vs1 vs2 : RegNo) (pm : BitVec 3) (esz : BitVec 2) (s : State) :
    Host.Outcome State Fault Refusal :=
  opVVV addSatU a vd vs1 vs2 pm esz s

/-- VCMP (R81): the condition of each active element into predicate pd; inactive elements give 0. -/
def execVcmp (a : Agent) (cond pd : BitVec 3) (vs1 vs2 : RegNo) (pm : BitVec 3) (esz : BitVec 2) (s : State) :
    Host.Outcome State Fault Refusal :=
  opPred esz (fun rest c =>
    let x := c.getV vs1.toNat
    let y := c.getV vs2.toNat
    let w := 8 * eszBytes esz
    c.setP pd.toNat (fromPreds esz (c.getP pm.toNat) rest (fun _ => false) fun i =>
      condHolds cond (BitVec.ofNat w (lane esz x i)) (BitVec.ofNat w (lane esz y i)))) a s

/-- VSEL (R81): elements selected by pm take vs1, the others vs2. -/
def execVsel (a : Agent) (vd vs1 vs2 : RegNo) (pm : BitVec 3) (esz : BitVec 2) (s : State) :
    Host.Outcome State Fault Refusal :=
  opVec (fun c => c.setV vd.toNat (fromLanes esz fun i =>
    if active esz (c.getP pm.toNat) i then lane esz (c.getV vs1.toNat) i else lane esz (c.getV vs2.toNat) i)) a s

/-- VBCAST: all active elements are the low bits of a g register. -/
def execVbcast (a : Agent) (vd rs : RegNo) (pm : BitVec 3) (esz : BitVec 2) (s : State) :
    Host.Outcome State Fault Refusal :=
  opVec (fun c => c.setV vd.toNat (maskLanes esz (c.getP pm.toNat) (c.getV vd.toNat)
    fun _ => (c.getG rs.toNat).toNat)) a s

/-- VEXT: element `el` of vs1, zero-extended, into a g register, which keeps its content when the element is inactive (R52). An
element number that names no element has no stated result: a free value. -/
def execVext (a : Agent) (rd vs1 : RegNo) (el : RegNo) (pm : BitVec 3) (esz : BitVec 2) (s : State) :
    Host.Outcome State Fault Refusal :=
  opVecFree (fun _ => decide (lanes esz ≤ el.toNat)) (fun v c =>
    if lanes esz ≤ el.toNat then c.setG rd.toNat (v.setWidth 64)
    else if active esz (c.getP pm.toNat) el.toNat then c.setG rd.toNat (w64 (lane esz (c.getV vs1.toNat) el.toNat))
    else c) a s

/-- VINS: element `el` of vd becomes the low bits of a g register, when active; a number that names no element leaves vd a free
value. -/
def execVins (a : Agent) (vd rs : RegNo) (el : RegNo) (pm : BitVec 3) (esz : BitVec 2) (s : State) :
    Host.Outcome State Fault Refusal :=
  opVecFree (fun _ => decide (lanes esz ≤ el.toNat)) (fun v c =>
    if lanes esz ≤ el.toNat then c.setV vd.toNat v
    else c.setV vd.toNat (maskLanes esz (c.getP pm.toNat) (c.getV vd.toNat) fun i =>
      if i = el.toNat then (c.getG rs.toNat).toNat else lane esz (c.getV vd.toNat) i)) a s

/-- VPERM: element i is element vs2[i] mod n of vs1. -/
def execVperm (a : Agent) (vd vs1 vs2 : RegNo) (pm : BitVec 3) (esz : BitVec 2) (s : State) :
    Host.Outcome State Fault Refusal :=
  opVec (fun c => c.setV vd.toNat (maskLanes esz (c.getP pm.toNat) (c.getV vd.toNat) fun i =>
    lane esz (c.getV vs1.toNat) (lane esz (c.getV vs2.toNat) i % lanes esz))) a s

/-- VRSUM: the sum of the active elements of vs1 in element 0, the rest cleared; no element gives 0. -/
def execVrsum (a : Agent) (vd vs1 : RegNo) (pm : BitVec 3) (esz : BitVec 2) (s : State) :
    Host.Outcome State Fault Refusal :=
  opVec (fun c => c.setV vd.toNat (BitVec.ofNat 256
    ((activeLanes esz (c.getP pm.toNat) (c.getV vs1.toNat)).foldl (laneOp esz fun _ x y => x + y) 0))) a s

/-- VRMIN (Table 02-12). -/
def execVrmin (a : Agent) (vd vs1 : RegNo) (pm : BitVec 3) (esz : BitVec 2) (s : State) :
    Host.Outcome State Fault Refusal :=
  opReduce (fun _ x y => minS x y) a vd vs1 pm esz s

/-- VRMAX (Table 02-12). -/
def execVrmax (a : Agent) (vd vs1 : RegNo) (pm : BitVec 3) (esz : BitVec 2) (s : State) :
    Host.Outcome State Fault Refusal :=
  opReduce (fun _ x y => maxS x y) a vd vs1 pm esz s

/-- VRMINU (Table 02-12). -/
def execVrminu (a : Agent) (vd vs1 : RegNo) (pm : BitVec 3) (esz : BitVec 2) (s : State) :
    Host.Outcome State Fault Refusal :=
  opReduce (fun _ x y => minU x y) a vd vs1 pm esz s

/-- VRMAXU (Table 02-12). -/
def execVrmaxu (a : Agent) (vd vs1 : RegNo) (pm : BitVec 3) (esz : BitVec 2) (s : State) :
    Host.Outcome State Fault Refusal :=
  opReduce (fun _ x y => maxU x y) a vd vs1 pm esz s

/-- PAND (R51, R81). -/
def execPand (a : Agent) (pd ps1 ps2 pm : BitVec 3) (esz : BitVec 2) (s : State) :
    Host.Outcome State Fault Refusal :=
  opPPP (fun x y => x && y) a pd ps1 ps2 pm esz s

/-- POR (R51, R81). -/
def execPor (a : Agent) (pd ps1 ps2 pm : BitVec 3) (esz : BitVec 2) (s : State) :
    Host.Outcome State Fault Refusal :=
  opPPP (fun x y => x || y) a pd ps1 ps2 pm esz s

/-- PXOR (R51, R81). -/
def execPxor (a : Agent) (pd ps1 ps2 pm : BitVec 3) (esz : BitVec 2) (s : State) :
    Host.Outcome State Fault Refusal :=
  opPPP (fun x y => x != y) a pd ps1 ps2 pm esz s

/-- PNOT (R51, R81). -/
def execPnot (a : Agent) (pd ps1 pm : BitVec 3) (esz : BitVec 2) (s : State) : Host.Outcome State Fault Refusal :=
  opPPP (fun x _ => !x) a pd ps1 ps1 pm esz s

/-- PCNT: the number of active elements of ps1, among those pm lets take part (R81). -/
def execPcnt (a : Agent) (rd : RegNo) (ps1 pm : BitVec 3) (esz : BitVec 2) (s : State) :
    Host.Outcome State Fault Refusal :=
  opVec (fun c => c.setG rd.toNat (w64 ((List.range (lanes esz)).filter fun i =>
    active esz (c.getP pm.toNat) i && active esz (c.getP ps1.toNat) i).length)) a s

end Sys2Proof.Machine
end

