-- ==== Sys2Proof/Machine/VectorFp.lean ====
section
/-! DEFINITION. Floating-point vector instructions (02.8, R77, R78, R698). -/

namespace Sys2Proof.Machine

/-- VFADD (R78). -/
def execVfadd (a : Agent) (vd vs1 vs2 : RegNo) (pm : BitVec 3) (esz : BitVec 2) (s : State) :
    Host.Outcome State Fault Refusal :=
  opFp (fun f rm x y _ => f.add rm x y) a vd vs1 vs2 pm esz s

/-- VFSUB (R78). -/
def execVfsub (a : Agent) (vd vs1 vs2 : RegNo) (pm : BitVec 3) (esz : BitVec 2) (s : State) :
    Host.Outcome State Fault Refusal :=
  opFp (fun f rm x y _ => f.sub rm x y) a vd vs1 vs2 pm esz s

/-- VFMUL (R78). -/
def execVfmul (a : Agent) (vd vs1 vs2 : RegNo) (pm : BitVec 3) (esz : BitVec 2) (s : State) :
    Host.Outcome State Fault Refusal :=
  opFp (fun f rm x y _ => f.mul rm x y) a vd vs1 vs2 pm esz s

/-- VFDIV (R78). -/
def execVfdiv (a : Agent) (vd vs1 vs2 : RegNo) (pm : BitVec 3) (esz : BitVec 2) (s : State) :
    Host.Outcome State Fault Refusal :=
  opFp (fun f rm x y _ => f.div rm x y) a vd vs1 vs2 pm esz s

/-- VFMA (R78): vd + vs1 · vs2 with one rounding. -/
def execVfma (a : Agent) (vd vs1 vs2 : RegNo) (pm : BitVec 3) (esz : BitVec 2) (s : State) :
    Host.Outcome State Fault Refusal :=
  opFp (fun f rm x y z => f.fma rm x y z) a vd vs1 vs2 pm esz s

/-- VFMIN (R78) (log entry 5). -/
def execVfmin (a : Agent) (vd vs1 vs2 : RegNo) (pm : BitVec 3) (esz : BitVec 2) (s : State) :
    Host.Outcome State Fault Refusal :=
  opFp (fun f _ x y _ => f.minMax false x y) a vd vs1 vs2 pm esz s

/-- VFMAX (R78) (log entry 5). -/
def execVfmax (a : Agent) (vd vs1 vs2 : RegNo) (pm : BitVec 3) (esz : BitVec 2) (s : State) :
    Host.Outcome State Fault Refusal :=
  opFp (fun f _ x y _ => f.minMax true x y) a vd vs1 vs2 pm esz s

/-- VFSQRT (R78, R698). -/
def execVfsqrt (a : Agent) (vd vs1 : RegNo) (pm : BitVec 3) (esz : BitVec 2) (s : State) :
    Host.Outcome State Fault Refusal :=
  opFp (fun f rm x _ _ => f.sqrt rm x) a vd vs1 vs1 pm esz s

/-- VFCVTI (R78, R698). -/
def execVfcvti (a : Agent) (vd vs1 : RegNo) (pm : BitVec 3) (esz : BitVec 2) (s : State) :
    Host.Outcome State Fault Refusal :=
  opFp (fun f rm x _ _ => f.toInt rm x) a vd vs1 vs1 pm esz s

/-- VFCVTF (R78, R698). -/
def execVfcvtf (a : Agent) (vd vs1 : RegNo) (pm : BitVec 3) (esz : BitVec 2) (s : State) :
    Host.Outcome State Fault Refusal :=
  opFp (fun f rm x _ _ => f.ofInt rm x) a vd vs1 vs1 pm esz s

end Sys2Proof.Machine
end

