-- ==== Sys2Proof/Machine/Dispatch.lean ====
section
/-! DEFINITION. What each command does: one arm per constructor, one call of its meaning. -/

namespace Sys2Proof.Machine

/-- The effect of a command on the machine. -/
def exec (i : Instr) (s : State) : Host.Outcome State Fault Refusal :=
  match i with
  | .coldPowerOn straps => Sys2Proof.Machine.execColdPowerOn straps s
  | .fuseLoadComplete ok => Sys2Proof.Machine.execFuseLoadComplete ok s
  | .domainBringupStep d => Sys2Proof.Machine.execDomainBringupStep d s
  | .bringupTimeout d => Sys2Proof.Machine.execBringupTimeout d s
  | .refclkLoss => Sys2Proof.Machine.execRefclkLoss s
  | .registerWrite r addr v => Sys2Proof.Machine.execRegisterWrite r addr v s
  | .illegalEncoding a w => Sys2Proof.Machine.execIllegalEncoding a w s
  | .add a rd rs1 rs2 => Sys2Proof.Machine.execAdd a rd rs1 rs2 s
  | .sub a rd rs1 rs2 => Sys2Proof.Machine.execSub a rd rs1 rs2 s
  | .and a rd rs1 rs2 => Sys2Proof.Machine.execAnd a rd rs1 rs2 s
  | .or a rd rs1 rs2 => Sys2Proof.Machine.execOr a rd rs1 rs2 s
  | .xor a rd rs1 rs2 => Sys2Proof.Machine.execXor a rd rs1 rs2 s
  | .andn a rd rs1 rs2 => Sys2Proof.Machine.execAndn a rd rs1 rs2 s
  | .sll a rd rs1 rs2 => Sys2Proof.Machine.execSll a rd rs1 rs2 s
  | .srl a rd rs1 rs2 => Sys2Proof.Machine.execSrl a rd rs1 rs2 s
  | .sra a rd rs1 rs2 => Sys2Proof.Machine.execSra a rd rs1 rs2 s
  | .ror a rd rs1 rs2 => Sys2Proof.Machine.execRor a rd rs1 rs2 s
  | .addw a rd rs1 rs2 => Sys2Proof.Machine.execAddw a rd rs1 rs2 s
  | .subw a rd rs1 rs2 => Sys2Proof.Machine.execSubw a rd rs1 rs2 s
  | .clz a rd rs1 => Sys2Proof.Machine.execClz a rd rs1 s
  | .ctz a rd rs1 => Sys2Proof.Machine.execCtz a rd rs1 s
  | .popc a rd rs1 => Sys2Proof.Machine.execPopc a rd rs1 s
  | .bswap a rd rs1 => Sys2Proof.Machine.execBswap a rd rs1 s
  | .min a rd rs1 rs2 => Sys2Proof.Machine.execMin a rd rs1 rs2 s
  | .max a rd rs1 rs2 => Sys2Proof.Machine.execMax a rd rs1 rs2 s
  | .minu a rd rs1 rs2 => Sys2Proof.Machine.execMinu a rd rs1 rs2 s
  | .maxu a rd rs1 rs2 => Sys2Proof.Machine.execMaxu a rd rs1 rs2 s
  | .setcc a cond rd rs1 rs2 => Sys2Proof.Machine.execSetcc a cond rd rs1 rs2 s
  | .mul a rd rs1 rs2 => Sys2Proof.Machine.execMul a rd rs1 rs2 s
  | .mulh a rd rs1 rs2 => Sys2Proof.Machine.execMulh a rd rs1 rs2 s
  | .mulhu a rd rs1 rs2 => Sys2Proof.Machine.execMulhu a rd rs1 rs2 s
  | .mulw a rd rs1 rs2 => Sys2Proof.Machine.execMulw a rd rs1 rs2 s
  | .div a rd rs1 rs2 => Sys2Proof.Machine.execDiv a rd rs1 rs2 s
  | .divu a rd rs1 rs2 => Sys2Proof.Machine.execDivu a rd rs1 rs2 s
  | .rem a rd rs1 rs2 => Sys2Proof.Machine.execRem a rd rs1 rs2 s
  | .remu a rd rs1 rs2 => Sys2Proof.Machine.execRemu a rd rs1 rs2 s
  | .divw a rd rs1 rs2 => Sys2Proof.Machine.execDivw a rd rs1 rs2 s
  | .divuw a rd rs1 rs2 => Sys2Proof.Machine.execDivuw a rd rs1 rs2 s
  | .addi a rd rs1 imm => Sys2Proof.Machine.execAddi a rd rs1 imm s
  | .addiw a rd rs1 imm => Sys2Proof.Machine.execAddiw a rd rs1 imm s
  | .andi a rd rs1 imm => Sys2Proof.Machine.execAndi a rd rs1 imm s
  | .ori a rd rs1 imm => Sys2Proof.Machine.execOri a rd rs1 imm s
  | .xori a rd rs1 imm => Sys2Proof.Machine.execXori a rd rs1 imm s
  | .slti a rd rs1 imm => Sys2Proof.Machine.execSlti a rd rs1 imm s
  | .sltiu a rd rs1 imm => Sys2Proof.Machine.execSltiu a rd rs1 imm s
  | .slli a rd rs1 sh => Sys2Proof.Machine.execSlli a rd rs1 sh s
  | .srli a rd rs1 sh => Sys2Proof.Machine.execSrli a rd rs1 sh s
  | .srai a rd rs1 sh => Sys2Proof.Machine.execSrai a rd rs1 sh s
  | .rori a rd rs1 sh => Sys2Proof.Machine.execRori a rd rs1 sh s
  | .shori a rd rs1 imm => Sys2Proof.Machine.execShori a rd rs1 imm s
  | .addpc a rd shift imm => Sys2Proof.Machine.execAddpc a rd shift imm s
  | .bcc a cond rs1 rs2 off => Sys2Proof.Machine.execBcc a cond rs1 rs2 off s
  | .bcci a cond rs1 imm off => Sys2Proof.Machine.execBcci a cond rs1 imm off s
  | .b a off => Sys2Proof.Machine.execB a off s
  | .bl a off => Sys2Proof.Machine.execBl a off s
  | .jr a rd rs1 imm => Sys2Proof.Machine.execJr a rd rs1 imm s
  | .lb a rt rb disp h => Sys2Proof.Machine.execLb a rt rb disp h s
  | .lbu a rt rb disp h => Sys2Proof.Machine.execLbu a rt rb disp h s
  | .lh a rt rb disp h => Sys2Proof.Machine.execLh a rt rb disp h s
  | .lhu a rt rb disp h => Sys2Proof.Machine.execLhu a rt rb disp h s
  | .lw a rt rb disp h => Sys2Proof.Machine.execLw a rt rb disp h s
  | .lwu a rt rb disp h => Sys2Proof.Machine.execLwu a rt rb disp h s
  | .ld a rt rb disp h => Sys2Proof.Machine.execLd a rt rb disp h s
  | .ldp a rt rb disp h => Sys2Proof.Machine.execLdp a rt rb disp h s
  | .sb a rt rb disp h => Sys2Proof.Machine.execSb a rt rb disp h s
  | .sh a rt rb disp h => Sys2Proof.Machine.execSh a rt rb disp h s
  | .sw a rt rb disp h => Sys2Proof.Machine.execSw a rt rb disp h s
  | .sd a rt rb disp h => Sys2Proof.Machine.execSd a rt rb disp h s
  | .sdp a rt rb disp h => Sys2Proof.Machine.execSdp a rt rb disp h s
  | .vld a rt rb disp h => Sys2Proof.Machine.execVld a rt rb disp h s
  | .vst a rt rb disp h => Sys2Proof.Machine.execVst a rt rb disp h s
  | .cas a rd rs1 rs2 ord sz => Sys2Proof.Machine.execCas a rd rs1 rs2 ord sz s
  | .swp a rd rs1 rs2 ord sz => Sys2Proof.Machine.execSwp a rd rs1 rs2 ord sz s
  | .ldadd a rd rs1 rs2 ord sz => Sys2Proof.Machine.execLdadd a rd rs1 rs2 ord sz s
  | .ldand a rd rs1 rs2 ord sz => Sys2Proof.Machine.execLdand a rd rs1 rs2 ord sz s
  | .ldor a rd rs1 rs2 ord sz => Sys2Proof.Machine.execLdor a rd rs1 rs2 ord sz s
  | .ldxor a rd rs1 rs2 ord sz => Sys2Proof.Machine.execLdxor a rd rs1 rs2 ord sz s
  | .ldmin a rd rs1 rs2 ord sz => Sys2Proof.Machine.execLdmin a rd rs1 rs2 ord sz s
  | .ldmax a rd rs1 rs2 ord sz => Sys2Proof.Machine.execLdmax a rd rs1 rs2 ord sz s
  | .ldminu a rd rs1 rs2 ord sz => Sys2Proof.Machine.execLdminu a rd rs1 rs2 ord sz s
  | .ldmaxu a rd rs1 rs2 ord sz => Sys2Proof.Machine.execLdmaxu a rd rs1 rs2 ord sz s
  | .lr a rd rs1 ord sz => Sys2Proof.Machine.execLr a rd rs1 ord sz s
  | .sc a rd rs1 rs2 ord sz => Sys2Proof.Machine.execSc a rd rs1 rs2 ord sz s
  | .lda a rd rs1 sz => Sys2Proof.Machine.execLda a rd rs1 sz s
  | .stl a rs1 rs2 sz => Sys2Proof.Machine.execStl a rs1 rs2 sz s
  | .vadd a vd vs1 vs2 pm esz => Sys2Proof.Machine.execVadd a vd vs1 vs2 pm esz s
  | .vsub a vd vs1 vs2 pm esz => Sys2Proof.Machine.execVsub a vd vs1 vs2 pm esz s
  | .vmul a vd vs1 vs2 pm esz => Sys2Proof.Machine.execVmul a vd vs1 vs2 pm esz s
  | .vand a vd vs1 vs2 pm esz => Sys2Proof.Machine.execVand a vd vs1 vs2 pm esz s
  | .vor a vd vs1 vs2 pm esz => Sys2Proof.Machine.execVor a vd vs1 vs2 pm esz s
  | .vxor a vd vs1 vs2 pm esz => Sys2Proof.Machine.execVxor a vd vs1 vs2 pm esz s
  | .vandn a vd vs1 vs2 pm esz => Sys2Proof.Machine.execVandn a vd vs1 vs2 pm esz s
  | .vmin a vd vs1 vs2 pm esz => Sys2Proof.Machine.execVmin a vd vs1 vs2 pm esz s
  | .vmax a vd vs1 vs2 pm esz => Sys2Proof.Machine.execVmax a vd vs1 vs2 pm esz s
  | .vminu a vd vs1 vs2 pm esz => Sys2Proof.Machine.execVminu a vd vs1 vs2 pm esz s
  | .vmaxu a vd vs1 vs2 pm esz => Sys2Proof.Machine.execVmaxu a vd vs1 vs2 pm esz s
  | .vsll a vd vs1 vs2 pm esz => Sys2Proof.Machine.execVsll a vd vs1 vs2 pm esz s
  | .vsrl a vd vs1 vs2 pm esz => Sys2Proof.Machine.execVsrl a vd vs1 vs2 pm esz s
  | .vsra a vd vs1 vs2 pm esz => Sys2Proof.Machine.execVsra a vd vs1 vs2 pm esz s
  | .vadds a vd vs1 vs2 pm esz => Sys2Proof.Machine.execVadds a vd vs1 vs2 pm esz s
  | .vaddus a vd vs1 vs2 pm esz => Sys2Proof.Machine.execVaddus a vd vs1 vs2 pm esz s
  | .vcmp a cond pd vs1 vs2 pm esz => Sys2Proof.Machine.execVcmp a cond pd vs1 vs2 pm esz s
  | .vsel a vd vs1 vs2 pm esz => Sys2Proof.Machine.execVsel a vd vs1 vs2 pm esz s
  | .vbcast a vd rs pm esz => Sys2Proof.Machine.execVbcast a vd rs pm esz s
  | .vext a rd vs1 el pm esz => Sys2Proof.Machine.execVext a rd vs1 el pm esz s
  | .vins a vd rs el pm esz => Sys2Proof.Machine.execVins a vd rs el pm esz s
  | .vperm a vd vs1 vs2 pm esz => Sys2Proof.Machine.execVperm a vd vs1 vs2 pm esz s
  | .vrsum a vd vs1 pm esz => Sys2Proof.Machine.execVrsum a vd vs1 pm esz s
  | .vrmin a vd vs1 pm esz => Sys2Proof.Machine.execVrmin a vd vs1 pm esz s
  | .vrmax a vd vs1 pm esz => Sys2Proof.Machine.execVrmax a vd vs1 pm esz s
  | .vrminu a vd vs1 pm esz => Sys2Proof.Machine.execVrminu a vd vs1 pm esz s
  | .vrmaxu a vd vs1 pm esz => Sys2Proof.Machine.execVrmaxu a vd vs1 pm esz s
  | .vldm a vd rb pm esz h => Sys2Proof.Machine.execVldm a vd rb pm esz h s
  | .vstm a vd rb pm esz h => Sys2Proof.Machine.execVstm a vd rb pm esz h s
  | .vfadd a vd vs1 vs2 pm esz => Sys2Proof.Machine.execVfadd a vd vs1 vs2 pm esz s
  | .vfsub a vd vs1 vs2 pm esz => Sys2Proof.Machine.execVfsub a vd vs1 vs2 pm esz s
  | .vfmul a vd vs1 vs2 pm esz => Sys2Proof.Machine.execVfmul a vd vs1 vs2 pm esz s
  | .vfdiv a vd vs1 vs2 pm esz => Sys2Proof.Machine.execVfdiv a vd vs1 vs2 pm esz s
  | .vfma a vd vs1 vs2 pm esz => Sys2Proof.Machine.execVfma a vd vs1 vs2 pm esz s
  | .vfmin a vd vs1 vs2 pm esz => Sys2Proof.Machine.execVfmin a vd vs1 vs2 pm esz s
  | .vfmax a vd vs1 vs2 pm esz => Sys2Proof.Machine.execVfmax a vd vs1 vs2 pm esz s
  | .vfsqrt a vd vs1 pm esz => Sys2Proof.Machine.execVfsqrt a vd vs1 pm esz s
  | .vfcvti a vd vs1 pm esz => Sys2Proof.Machine.execVfcvti a vd vs1 pm esz s
  | .vfcvtf a vd vs1 pm esz => Sys2Proof.Machine.execVfcvtf a vd vs1 pm esz s
  | .pand a pd ps1 ps2 pm esz => Sys2Proof.Machine.execPand a pd ps1 ps2 pm esz s
  | .por a pd ps1 ps2 pm esz => Sys2Proof.Machine.execPor a pd ps1 ps2 pm esz s
  | .pxor a pd ps1 ps2 pm esz => Sys2Proof.Machine.execPxor a pd ps1 ps2 pm esz s
  | .pnot a pd ps1 pm esz => Sys2Proof.Machine.execPnot a pd ps1 pm esz s
  | .pcnt a rd ps1 pm esz => Sys2Proof.Machine.execPcnt a rd ps1 pm esz s
  | .mfs a ra sreg => Sys2Proof.Machine.execMfs a ra sreg s
  | .mts a ra sreg => Sys2Proof.Machine.execMts a ra sreg s
  | .scall a imm => Sys2Proof.Machine.execScall a imm s
  | .hcall a imm => Sys2Proof.Machine.execHcall a imm s
  | .fcall a imm => Sys2Proof.Machine.execFcall a imm s
  | .brk a imm => Sys2Proof.Machine.execBrk a imm s
  | .gate a rb => Sys2Proof.Machine.execGate a rb s
  | .tret a => Sys2Proof.Machine.execTret a s
  | .wfi a => Sys2Proof.Machine.execWfi a s
  | .sync a => Sys2Proof.Machine.execSync a s
  | .rand a ra rb => Sys2Proof.Machine.execRand a ra rb s
  | .fence a mask => Sys2Proof.Machine.execFence a mask s
  | .dcClean a rb => Sys2Proof.Machine.execDcClean a rb s
  | .dcCleaninv a rb => Sys2Proof.Machine.execDcCleaninv a rb s
  | .dcInv a rb => Sys2Proof.Machine.execDcInv a rb s
  | .dcZero a rb => Sys2Proof.Machine.execDcZero a rb s
  | .tlbi a ra rb scope bcast => Sys2Proof.Machine.execTlbi a ra rb scope bcast s
  | .retw a => Sys2Proof.Machine.execRetw a s
  | .interruptEntry n => Sys2Proof.Machine.execInterruptEntry n s
  | .partitionStopExit n => Sys2Proof.Machine.execPartitionStopExit n s
  | .wfiWake n => Sys2Proof.Machine.execWfiWake n s
  | .c3EntryComplete n => Sys2Proof.Machine.execC3EntryComplete n s
  | .c3Wake n => Sys2Proof.Machine.execC3Wake n s
  | .tlbFill n fetch => Sys2Proof.Machine.execTlbFill n fetch s
  | .storeWriteL1d n => Sys2Proof.Machine.execStoreWriteL1d n s
  | .l1dFill n => Sys2Proof.Machine.execL1dFill n s
  | .heldLoadRelease n => Sys2Proof.Machine.execHeldLoadRelease n s
  | .prefetchIssue n which line => Sys2Proof.Machine.execPrefetchIssue n which line s
  | .rds n line key => Sys2Proof.Machine.execRds n line key s
  | .rdo n line key => Sys2Proof.Machine.execRdo n line key s
  | .upg n line key => Sys2Proof.Machine.execUpg n line key s
  | .wbk n line => Sys2Proof.Machine.execWbk n line s
  | .wcln n line => Sys2Proof.Machine.execWcln n line s
  | .evc n line => Sys2Proof.Machine.execEvc n line s
  | .rdonce src line key => Sys2Proof.Machine.execRdonce src line key s
  | .wrline src line key data alloc => Sys2Proof.Machine.execWrline src line key data alloc s
  | .wrptl src line key data mask => Sys2Proof.Machine.execWrptl src line key data mask s
  | .backgroundClean c => Sys2Proof.Machine.execBackgroundClean c s
  | .snps n line => Sys2Proof.Machine.execSnps n line s
  | .snpif n line => Sys2Proof.Machine.execSnpif n line s
  | .snpi n line => Sys2Proof.Machine.execSnpi n line s
  | .snponce n line => Sys2Proof.Machine.execSnponce n line s
  | .wbp n line => Sys2Proof.Machine.execWbp n line s
  | .snpack n line => Sys2Proof.Machine.execSnpack n line s
  | .snpdat n line => Sys2Proof.Machine.execSnpdat n line s
  | .wback n line => Sys2Proof.Machine.execWback n line s
  | .cmp stop tid => Sys2Proof.Machine.execCmp stop tid s
  | .cmpm stop tid => Sys2Proof.Machine.execCmpm stop tid s
  | .dats stop tid => Sys2Proof.Machine.execDats stop tid s
  | .date stop tid => Sys2Proof.Machine.execDate stop tid s
  | .datm stop tid => Sys2Proof.Machine.execDatm stop tid s
  | .datrd stop tid => Sys2Proof.Machine.execDatrd stop tid s
  | .rddev src stop addr size => Sys2Proof.Machine.execRddev src stop addr size s
  | .memrd mc line key who => Sys2Proof.Machine.execMemrd mc line key who s
  | .memwr mc line key data poison fin who => Sys2Proof.Machine.execMemwr mc line key data poison fin who s
  | .shinc mc line => Sys2Proof.Machine.execShinc mc line s
  | .shdec mc line => Sys2Proof.Machine.execShdec mc line s
  | .l2TagRecovery n set => Sys2Proof.Machine.execL2TagRecovery n set s
  | .tagrecov slice n set => Sys2Proof.Machine.execTagrecov slice n set s
  | .ceWindowRoll c way => Sys2Proof.Machine.execCeWindowRoll c way s
  | .tcWaydisWrite r tile hi v => Sys2Proof.Machine.execTcWaydisWrite r tile hi v s
  | .cchModeWrite r v => Sys2Proof.Machine.execCchModeWrite r v s
  | .dbCfgWrite r v => Sys2Proof.Machine.execDbCfgWrite r v s
  | .remoteGrant mc line excl => Sys2Proof.Machine.execRemoteGrant mc line excl s
  | .socketSnoop mc line excl => Sys2Proof.Machine.execSocketSnoop mc line excl s
  | .evictionReport mc line => Sys2Proof.Machine.execEvictionReport mc line s
  | .samEntryWrite r e ix v => Sys2Proof.Machine.execSamEntryWrite r e ix v s
  | .samupd stop => Sys2Proof.Machine.execSamupd stop s
  | .resourceOutOfService r x => Sys2Proof.Machine.execResourceOutOfService r x s
  | .flitArrive stop inp f => Sys2Proof.Machine.execFlitArrive stop inp f s
  | .islandReady stop => Sys2Proof.Machine.execIslandReady stop s
  | .creditResync stop => Sys2Proof.Machine.execCreditResync stop s
  | .watchdogFire stop tid => Sys2Proof.Machine.execWatchdogFire stop tid s
  | .fenceRequest stop src => Sys2Proof.Machine.execFenceRequest stop src s
  | .fencemark stop src ch => Sys2Proof.Machine.execFencemark stop src ch s
  | .ownPortStall stop => Sys2Proof.Machine.execOwnPortStall stop s
  | .broadcastTimeout stop b => Sys2Proof.Machine.execBroadcastTimeout stop b s
  | .bcack stop src b => Sys2Proof.Machine.execBcack stop src b s
  | .niRtWrite r stop d v => Sys2Proof.Machine.execNiRtWrite r stop d v s
  | .prbCtlWrite r stop v => Sys2Proof.Machine.execPrbCtlWrite r stop v s
  | .regrd r addr tid => Sys2Proof.Machine.execRegrd r addr tid s
  | .regwr r addr v be tid => Sys2Proof.Machine.execRegwr r addr v be tid s
  | .regcmp stop tid => Sys2Proof.Machine.execRegcmp stop tid s
  | .intr src n c vec => Sys2Proof.Machine.execIntr src n c vec s
  | .tlbiBroadcast u src => Sys2Proof.Machine.execTlbiBroadcast u src s
  | .potinv u => Sys2Proof.Machine.execPotinv u s
  | .potInvWrite r v => Sys2Proof.Machine.execPotInvWrite r v s
  | .potInvComplete => Sys2Proof.Machine.execPotInvComplete s
  | .dramCommandIssue mc sub mustRef blocked => Sys2Proof.Machine.execDramCommandIssue mc sub mustRef blocked s
  | .refreshDue mc sub => Sys2Proof.Machine.execRefreshDue mc sub s
  | .rhWindowClear mc => Sys2Proof.Machine.execRhWindowClear mc s
  | .urgencyPromotion mc sub ix ageNs => Sys2Proof.Machine.execUrgencyPromotion mc sub ix ageNs s
  | .dramReadComplete mc sub o => Sys2Proof.Machine.execDramReadComplete mc sub o s
  | .sparingCopyEnd mc rank sub => Sys2Proof.Machine.execSparingCopyEnd mc rank sub s
  | .alertN mc fails => Sys2Proof.Machine.execAlertN mc fails s
  | .patrolRead mc o partner => Sys2Proof.Machine.execPatrolRead mc o partner s
  | .softPpr mc rank bank row => Sys2Proof.Machine.execSoftPpr mc rank bank row s
  | .keyQuery r slot => Sys2Proof.Machine.execKeyQuery r slot s
  | .keyLoad r slot => Sys2Proof.Machine.execKeyLoad r slot s
  | .keyErase r slot => Sys2Proof.Machine.execKeyErase r slot s
  | .keyEraseAll r => Sys2Proof.Machine.execKeyEraseAll r s
  | .keyCommandComplete => Sys2Proof.Machine.execKeyCommandComplete s
  | .keyStatusClear r => Sys2Proof.Machine.execKeyStatusClear r s
  | .swqEnable r q => Sys2Proof.Machine.execSwqEnable r q s
  | .swqDisable r q => Sys2Proof.Machine.execSwqDisable r q s
  | .swqReset r q => Sys2Proof.Machine.execSwqReset r q s
  | .swqDb q => Sys2Proof.Machine.execSwqDb q s
  | .qcbPoll q => Sys2Proof.Machine.execQcbPoll q s
  | .qcbReadReturn q status => Sys2Proof.Machine.execQcbReadReturn q status s
  | .swqReldb q handle => Sys2Proof.Machine.execSwqReldb q handle s
  | .jobStart e => Sys2Proof.Machine.execJobStart e s
  | .sweepUnit e => Sys2Proof.Machine.execSweepUnit e s
  | .jobResume e => Sys2Proof.Machine.execJobResume e s
  | .suspensionTimeout e q => Sys2Proof.Machine.execSuspensionTimeout e q s
  | .sweepErrorReport e q => Sys2Proof.Machine.execSweepErrorReport e q s
  | .jobEnd q => Sys2Proof.Machine.execJobEnd q s
  | .swStop r e => Sys2Proof.Machine.execSwStop r e s
  | .swRun r e => Sys2Proof.Machine.execSwRun r e s
  | .engineStopComplete e => Sys2Proof.Machine.execEngineStopComplete e s
  | .swuLoad r waitMs => Sys2Proof.Machine.execSwuLoad r waitMs s
  | .swuUnload r waitMs => Sys2Proof.Machine.execSwuUnload r waitMs s
  | .swuModuleChecked => Sys2Proof.Machine.execSwuModuleChecked s
  | .swuHoldReached => Sys2Proof.Machine.execSwuHoldReached s
  | .swuHoldTimeout => Sys2Proof.Machine.execSwuHoldTimeout s
  | .ucodeNop e cl => Sys2Proof.Machine.execUcodeNop e cl s
  | .ucodeAdd e cl d a b => Sys2Proof.Machine.execUcodeAdd e cl d a b s
  | .ucodeSub e cl d a b => Sys2Proof.Machine.execUcodeSub e cl d a b s
  | .ucodeAnd e cl d a b => Sys2Proof.Machine.execUcodeAnd e cl d a b s
  | .ucodeOr e cl d a b => Sys2Proof.Machine.execUcodeOr e cl d a b s
  | .ucodeXor e cl d a b => Sys2Proof.Machine.execUcodeXor e cl d a b s
  | .ucodeShl e cl d a b => Sys2Proof.Machine.execUcodeShl e cl d a b s
  | .ucodeShr e cl d a b => Sys2Proof.Machine.execUcodeShr e cl d a b s
  | .ucodeSar e cl d a b => Sys2Proof.Machine.execUcodeSar e cl d a b s
  | .ucodeAddi e cl d a imm => Sys2Proof.Machine.execUcodeAddi e cl d a imm s
  | .ucodeMovk e cl d k imm => Sys2Proof.Machine.execUcodeMovk e cl d k imm s
  | .ucodeCmp e cl a b => Sys2Proof.Machine.execUcodeCmp e cl a b s
  | .ucodeCmpi e cl a imm => Sys2Proof.Machine.execUcodeCmpi e cl a imm s
  | .ucodeParam e cl d p => Sys2Proof.Machine.execUcodeParam e cl d p s
  | .ucodeMul e cl d a b => Sys2Proof.Machine.execUcodeMul e cl d a b s
  | .xadd e cl xd xa xb => Sys2Proof.Machine.execXadd e cl xd xa xb s
  | .xsub e cl xd xa xb => Sys2Proof.Machine.execXsub e cl xd xa xb s
  | .xand e cl xd xa xb => Sys2Proof.Machine.execXand e cl xd xa xb s
  | .xior e cl xd xa xb => Sys2Proof.Machine.execXior e cl xd xa xb s
  | .xxor e cl xd xa xb => Sys2Proof.Machine.execXxor e cl xd xa xb s
  | .xshri e cl xd xa imm => Sys2Proof.Machine.execXshri e cl xd xa imm s
  | .xshli e cl xd xa imm => Sys2Proof.Machine.execXshli e cl xd xa imm s
  | .xmul e cl xd xa xb => Sys2Proof.Machine.execXmul e cl xd xa xb s
  | .xcmp e cl md xa xb ma cond => Sys2Proof.Machine.execXcmp e cl md xa xb ma cond s
  | .mop e cl md ma mb op => Sys2Proof.Machine.execMop e cl md ma mb op s
  | .xsel e cl xd xa xb ma => Sys2Proof.Machine.execXsel e cl xd xa xb ma s
  | .xbcast e cl xd sr => Sys2Proof.Machine.execXbcast e cl xd sr s
  | .xext e cl sr xa lane => Sys2Proof.Machine.execXext e cl sr xa lane s
  | .xcrc e cl xd xa => Sys2Proof.Machine.execXcrc e cl xd xa s
  | .xgath e cl xd xa ma sr => Sys2Proof.Machine.execXgath e cl xd xa ma sr s
  | .ucodeIn e cl xd col => Sys2Proof.Machine.execUcodeIn e cl xd col s
  | .sel e cl ma => Sys2Proof.Machine.execSel e cl ma s
  | .putv e cl xa ma => Sys2Proof.Machine.execPutv e cl xa ma s
  | .ucodeLds e cl x sr imm => Sys2Proof.Machine.execUcodeLds e cl x sr imm s
  | .ucodeSts e cl x sr imm => Sys2Proof.Machine.execUcodeSts e cl x sr imm s
  | .ucodeBr e cl sense annul cbit target => Sys2Proof.Machine.execUcodeBr e cl sense annul cbit target s
  | .ucodeCall e cl target => Sys2Proof.Machine.execUcodeCall e cl target s
  | .ucodeRet e cl => Sys2Proof.Machine.execUcodeRet e cl s
  | .ucodeDone e cl => Sys2Proof.Machine.execUcodeDone e cl s
  | .ucodeFault e cl n => Sys2Proof.Machine.execUcodeFault e cl n s
  | .loada e cl => Sys2Proof.Machine.execLoada e cl s
  | .loadb e cl => Sys2Proof.Machine.execLoadb e cl s
  | .rowinfo e cl => Sys2Proof.Machine.execRowinfo e cl s
  | .flush e cl => Sys2Proof.Machine.execFlush e cl s
  | .zero e cl => Sys2Proof.Machine.execZero e cl s
  | .scrcrc e cl => Sys2Proof.Machine.execScrcrc e cl s
  | .sort e cl => Sys2Proof.Machine.execSort e cl s
  | .unitBudgetExpiry e => Sys2Proof.Machine.execUnitBudgetExpiry e s
  | .cxsCtlReset r k => Sys2Proof.Machine.execCxsCtlReset r k s
  | .cxsCtlHold r k hold => Sys2Proof.Machine.execCxsCtlHold r k hold s
  | .cxInterruptEntry k => Sys2Proof.Machine.execCxInterruptEntry k s
  | .spill k => Sys2Proof.Machine.execSpill k s
  | .cxDivideComplete k => Sys2Proof.Machine.execCxDivideComplete k s
  | .cxCacheRefill k icache => Sys2Proof.Machine.execCxCacheRefill k icache s
  | .reachRead k slot v => Sys2Proof.Machine.execReachRead k slot v s
  | .reachWrite k slot v => Sys2Proof.Machine.execReachWrite k slot v s
  | .reachComplete k slot status data => Sys2Proof.Machine.execReachComplete k slot status data s
  | .lockstepMismatch k => Sys2Proof.Machine.execLockstepMismatch k s
  | .pairFaultReport k halt => Sys2Proof.Machine.execPairFaultReport k halt s
  | .pvValidate r addr => Sys2Proof.Machine.execPvValidate r addr s
  | .pvStop r addr => Sys2Proof.Machine.execPvStop r addr s
  | .pvRetire r addr => Sys2Proof.Machine.execPvRetire r addr s
  | .cx3Load r => Sys2Proof.Machine.execCx3Load r s
  | .cx3MbdbIn r => Sys2Proof.Machine.execCx3MbdbIn r s
  | .cx3MbdbOut r => Sys2Proof.Machine.execCx3MbdbOut r s
  | .pwrfailNFall => Sys2Proof.Machine.execPwrfailNFall s
  | .pwrfailNRise => Sys2Proof.Machine.execPwrfailNRise s
  | .finishTrigger => Sys2Proof.Machine.execFinishTrigger s
  | .finForce r => Sys2Proof.Machine.execFinForce r s
  | .finishMessage stop => Sys2Proof.Machine.execFinishMessage stop s
  | .flushComplete => Sys2Proof.Machine.execFlushComplete s
  | .finishCopyComplete => Sys2Proof.Machine.execFinishCopyComplete s
  | .finCx3Done r => Sys2Proof.Machine.execFinCx3Done r s
  | .cx3WindowExpiry => Sys2Proof.Machine.execCx3WindowExpiry s
  | .finishRecord => Sys2Proof.Machine.execFinishRecord s
  | .catchStart lost powerLost => Sys2Proof.Machine.execCatchStart lost powerLost s
  | .catchRelease => Sys2Proof.Machine.execCatchRelease s
  | .powerGoodLoss d => Sys2Proof.Machine.execPowerGoodLoss d s
  | .pwrDomCtlWrite r v => Sys2Proof.Machine.execPwrDomCtlWrite r v s
  | .grantUpdate measuredW room => Sys2Proof.Machine.execGrantUpdate measuredW room s
  | .thermalSample stop c => Sys2Proof.Machine.execThermalSample stop c s
  | .packageIdleEntry => Sys2Proof.Machine.execPackageIdleEntry s
  | .packageIdleExit => Sys2Proof.Machine.execPackageIdleExit s
  | .pkgReqSleep r => Sys2Proof.Machine.execPkgReqSleep r s
  | .pkgReqRun r => Sys2Proof.Machine.execPkgReqRun r s
  | .sleepEntryStart => Sys2Proof.Machine.execSleepEntryStart s
  | .sleepEntryComplete => Sys2Proof.Machine.execSleepEntryComplete s
  | .packageWake code detail => Sys2Proof.Machine.execPackageWake code detail s
  | .packageRunReached => Sys2Proof.Machine.execPackageRunReached s
  | .selfRefreshReturn mc => Sys2Proof.Machine.execSelfRefreshReturn mc s
  | .aoTimerWrite r v => Sys2Proof.Machine.execAoTimerWrite r v s
  | .aoTimerExpiry => Sys2Proof.Machine.execAoTimerExpiry s
  | .gpioWake pin => Sys2Proof.Machine.execGpioWake pin s
  | .linkWake io => Sys2Proof.Machine.execLinkWake io s
  | .pwrRstWarm r => Sys2Proof.Machine.execPwrRstWarm r s
  | .pwrRstCold r => Sys2Proof.Machine.execPwrRstCold r s
  | .tileReset r tile => Sys2Proof.Machine.execTileReset r tile s
  | .tileResetComplete tile => Sys2Proof.Machine.execTileResetComplete tile s
  | .tileRelease r tile => Sys2Proof.Machine.execTileRelease r tile s
  | .ioCfgWrite r io v => Sys2Proof.Machine.execIoCfgWrite r io v s
  | .ioRstReset r io => Sys2Proof.Machine.execIoRstReset r io s
  | .linkUp io link rate width cxl flit => Sys2Proof.Machine.execLinkUp io link rate width cxl flit s
  | .linkDown io link => Sys2Proof.Machine.execLinkDown io link s
  | .socketLinkTrained io pLo pHi pFeat => Sys2Proof.Machine.execSocketLinkTrained io pLo pHi pFeat s
  | .perstNInput io high => Sys2Proof.Machine.execPerstNInput io high s
  | .inboundPostedWrite io t data => Sys2Proof.Machine.execInboundPostedWrite io t data s
  | .inboundReadRequest io t => Sys2Proof.Machine.execInboundReadRequest io t s
  | .inboundAtomic io t op operand compare => Sys2Proof.Machine.execInboundAtomic io t op operand compare s
  | .interruptMessage io t data => Sys2Proof.Machine.execInterruptMessage io t data s
  | .completionReceived io tag status data => Sys2Proof.Machine.execCompletionReceived io tag status data s
  | .completionTimeout io tag => Sys2Proof.Machine.execCompletionTimeout io tag s
  | .tagHoldExpiry io tag => Sys2Proof.Machine.execTagHoldExpiry io tag s
  | .iotuInvWrite r v => Sys2Proof.Machine.execIotuInvWrite r v s
  | .iotuInvComplete => Sys2Proof.Machine.execIotuInvComplete s
  | .epActiveChange r act => Sys2Proof.Machine.execEpActiveChange r act s
  | .epVfWrite r vf word1 v => Sys2Proof.Machine.execEpVfWrite r vf word1 v s
  | .vfDoorbellWrite vf off v => Sys2Proof.Machine.execVfDoorbellWrite vf off v s
  | .mailboxSlotWrite vf off data => Sys2Proof.Machine.execMailboxSlotWrite vf off data s
  | .mbDbWrite vf v => Sys2Proof.Machine.execMbDbWrite vf v s
  | .mbPendRead vf => Sys2Proof.Machine.execMbPendRead vf s
  | .epRtailWrite r io ring v => Sys2Proof.Machine.execEpRtailWrite r io ring v s
  | .ringDescriptor io ring h => Sys2Proof.Machine.execRingDescriptor io ring h s
  | .epMboxSend r io vf v => Sys2Proof.Machine.execEpMboxSend r io vf v s
  | .epSend r io v => Sys2Proof.Machine.execEpSend r io v s
  | .msixUnmask fn vec => Sys2Proof.Machine.execMsixUnmask fn vec s
  | .bmeClear fn => Sys2Proof.Machine.execBmeClear fn s
  | .bmeSet fn => Sys2Proof.Machine.execBmeSet fn s
  | .flrVf fn => Sys2Proof.Machine.execFlrVf fn s
  | .flrPf => Sys2Proof.Machine.execFlrPf s
  | .flrComplete fn => Sys2Proof.Machine.execFlrComplete fn s
  | .xVsend n lvlH v => Sys2Proof.Machine.execXVsend n lvlH v s
  | .coreDoorbellWrite r n c off size v => Sys2Proof.Machine.execCoreDoorbellWrite r n c off size v s
  | .hVheldpMove n entry v => Sys2Proof.Machine.execHVheldpMove n entry v s
  | .errorRecord b e => Sys2Proof.Machine.execErrorRecord b e s
  | .errInjArm r b v => Sys2Proof.Machine.execErrInjArm r b v s
  | .rasRecordService b slot => Sys2Proof.Machine.execRasRecordService b slot s
  | .correctedLogFlush => Sys2Proof.Machine.execCorrectedLogFlush s
  | .securityAlarm sources => Sys2Proof.Machine.execSecurityAlarm sources s
  | .alarmMessage mc => Sys2Proof.Machine.execAlarmMessage mc s
  | .debugTokenSubmit r => Sys2Proof.Machine.execDebugTokenSubmit r s
  | .trngOutRead r => Sys2Proof.Machine.execTrngOutRead r s
  | .trngHealthFailure rct => Sys2Proof.Machine.execTrngHealthFailure rct s
  | .trngRecoveryComplete => Sys2Proof.Machine.execTrngRecoveryComplete s
  | .drbgReseed => Sys2Proof.Machine.execDrbgReseed s
  | .bootStart => Sys2Proof.Machine.execBootStart s
  | .bootCommit => Sys2Proof.Machine.execBootCommit s
  | .coreRelease => Sys2Proof.Machine.execCoreRelease s
  | .bootRcvData r v => Sys2Proof.Machine.execBootRcvData r v s
  | .bootRcvErase r => Sys2Proof.Machine.execBootRcvErase r s
  | .bootRcvProgram r => Sys2Proof.Machine.execBootRcvProgram r s
  | .bootRcvColdReset r => Sys2Proof.Machine.execBootRcvColdReset r s
  | .muxFnWrite r f v => Sys2Proof.Machine.execMuxFnWrite r f v s
  | .pinSwitchComplete pin => Sys2Proof.Machine.execPinSwitchComplete pin s
  | .counterOverflow u c => Sys2Proof.Machine.execCounterOverflow u c s
  | .sampleRingWrite n => Sys2Proof.Machine.execSampleRingWrite n s
  | .sampleRecordRead n rd => Sys2Proof.Machine.execSampleRecordRead n rd s
  | .ergFreeze r => Sys2Proof.Machine.execErgFreeze r s
  | .ergRelease r => Sys2Proof.Machine.execErgRelease r s
  | .ergSnapshot r => Sys2Proof.Machine.execErgSnapshot r s
  | .freezeMessage stop => Sys2Proof.Machine.execFreezeMessage stop s
  | .releaseMessage stop => Sys2Proof.Machine.execReleaseMessage stop s
  | .snapshotMessage stop tag => Sys2Proof.Machine.execSnapshotMessage stop tag s
  | .debugRegrd f => Sys2Proof.Machine.execDebugRegrd f s
  | .debugRegwr f => Sys2Proof.Machine.execDebugRegwr f s
  | .jtagBypass => Sys2Proof.Machine.execJtagBypass s
  | .jtagSamplePreload => Sys2Proof.Machine.execJtagSamplePreload s
  | .jtagExtest => Sys2Proof.Machine.execJtagExtest s
  | .jtagClamp => Sys2Proof.Machine.execJtagClamp s
  | .jtagHighz => Sys2Proof.Machine.execJtagHighz s
  | .testLogicReset => Sys2Proof.Machine.execTestLogicReset s
  | .holdupOkChange high => Sys2Proof.Machine.execHoldupOkChange high s
  | .refclkReturn => Sys2Proof.Machine.execRefclkReturn s
  | .suppliesRemoved => Sys2Proof.Machine.execSuppliesRemoved s
  | .finishForwarding io => Sys2Proof.Machine.execFinishForwarding io s
  | .freezeAndSnapshotForwarding kind tag => Sys2Proof.Machine.execFreezeAndSnapshotForwarding kind tag s
  | .debugHaltRequest n => Sys2Proof.Machine.execDebugHaltRequest n s
  | .perstNDrivenHigh io link => Sys2Proof.Machine.execPerstNDrivenHigh io link s
  | .ergGctlBusyEnd => Sys2Proof.Machine.execErgGctlBusyEnd s
  | .dbgPresentNChange high => Sys2Proof.Machine.execDbgPresentNChange high s
  | .configurationRequest fn w v => Sys2Proof.Machine.execConfigurationRequest fn w v s

end Sys2Proof.Machine
end

