-- ==== Sys2Proof/Machine/Tick.lean ====
section
/-! DEFINITION. A tick of the 1 µs timebase (R259, R505), which a step on an empty queue is (log entry 1). -/

namespace Sys2Proof.Machine

/-- The frequency a tile runs at, in MHz: the lower of target and grant, halved above 95 °C (R507, R509). -/
def tileMHz (s : State) (t : Nat) : Nat :=
  let f := 25 * min (tileTarget s t) (tileGrant s t)
  if s.power.halved.contains t then f / 2 else f

/-- Core clocks in one tick: between 95 % of the tile's frequency and all of it, as supply droop has it (R508). -/
def tickCycles (t : Nat) (s : State) : Nat × State :=
  let f := tileMHz s t
  let d := s.draw
  (f - d.1.toNat % (f / 20 + 1), d.2)

/-- X_ERGCYC of a running core advances and may wrap (R647, R649). -/
def tickCore (n cycles : Nat) (s : State) : State :=
  let c := s.core n
  if c.run ≠ .running ∨ c.ergStopped then s
  else
    let x := (c.erg 0x40).toNat + cycles
    let s := if x < 2 ^ 64 then s else coreOverflow n 8 s
    s.modCore n fun c => c.setErg 0x40 (w64 (x % 2 ^ 64))

/-- UNC_CYC of a block advances and may wrap (R663). -/
def tickUnc (b stop cycles : Nat) (s : State) : State :=
  if s.frozen.contains stop || bit (s.reg .UNC_CTL b) 0 then s
  else
    let x := (s.reg .UNC_CYC b).toNat + cycles
    let s := if x < 2 ^ 64 then s else uncOverflow b stop 4 s
    s.setReg .UNC_CYC (w64 (x % 2 ^ 64)) b

/-- The counters of a tile: its two cores and its block. -/
def tickTile (t : Nat) (s : State) : State :=
  let c := tickCycles t s
  tickUnc (uncBase (.tile t)) (tileStop t) c.1 (tickCore (2 * t + 1) c.1 (tickCore (2 * t) c.1 c.2))

/-- An I/O island's clock follows its links, so the cycles of a tick are a free value (Table 01-3). -/
def tickIo (n : Nat) (s : State) : State :=
  let d := s.draw
  let s := tickUnc (uncBase (.io n)) (ioStop n) (d.1.toNat % 4096) d.2
  if (s.ioAt n).egress = [] then s else s.modIo n fun x => { x with egress := [] }

/-- A pair's cycle count advances by 1,000 (R408, Table 10-11). -/
def tickPair (k : Nat) (s : State) : State :=
  if pairAlive s k then s.modPair k fun p => p.setCx 0x11 (p.cx 0x11 + 1000) else s

/-- The always-on timer counts down (R522). -/
def tickTimer (s : State) : State :=
  if !bit (s.reg .AO_TIMER) 63 then s
  else if s.regF .AO_TIMER 47 0 ≤ 1 then timerEnds s
  else s.setRegF .AO_TIMER 47 0 (s.regF .AO_TIMER 47 0 - 1)

/-- What one tick does: timebase, timer, cycle counters; the fuse cells of an epoch advance are programmed (R610), and link partners
take the TLPs on their way. -/
def tickAll (s : State) : State :=
  let s := tickTimer { s with timeUs := s.timeUs + 1, sec := { s.sec with epochFlag := false } }
  let s := (List.range 72).foldl (fun s t => tickTile t s) s
  let s := (List.range 16).foldl (fun s n => tickUnc (uncBase (.mc n)) (mcStop n) 1200 s) s
  let s := (List.range 12).foldl (fun s n => tickIo n s) s
  (List.range 4).foldl (fun s k => tickPair k s) s

/-- One tick; in the Off state nothing runs (R510). -/
def tick (s : State) : Host.Outcome State Fault Refusal := answer s (if s.power.off then s else tickAll s)

end Sys2Proof.Machine
end

