-- ==== Sys2Proof/Safety.lean ====
section
/-! DEFINITION. What a safe run is, and the terms in which the claims say what a command leaves unchanged. -/

namespace Sys2Proof

/-- A step of a state answers a next state. -/
def StepsOn (s : Machine.State) : Prop := ∃ t, Machine.step s = .next t

/-- A run of `k` steps neither faults nor is refused. -/
def SafeRun (k : Nat) (s : Machine.State) : Prop :=
  ∃ t, Host.Core.run ⟨Machine.State, Machine.Fault, Machine.Refusal, Machine.step, .reset⟩ k s = .next t

namespace Machine

/-- Core `d` is core `c` but for Erg counters, samples and pending interrupts: every register, the pc, every queue, buffer and
reservation, and every special register outside indices 0x20 to 0x23 of a level agree. -/
def Core.Alike (c d : Core) : Prop :=
  d = { c with sysr := d.sysr, smp := d.smp } ∧
    ∀ w l i, l < 4 → i < 256 → (i < 0x20 ∨ 0x24 ≤ i) → d.sys w l i = c.sys w l i

/-- The pairs agree but for the interrupt inputs they have latched. -/
def PairsAlike (s t : State) : Prop := ∀ k, { t.pair k with pend := 0 } = { s.pair k with pend := 0 }

/-- Every memory-mapped register outside some error banks agrees. -/
def OnlyBanks (bs : List BankId) (s t : State) : Prop :=
  ∀ k, (∀ b ∈ bs, k < bankBase b ∨ bankBase b + 0x100 ≤ k) → NMap.find? t.crs k = NMap.find? s.crs k

/-- `t` is `s` but for what counting and sampling an instruction of core `n` leaves: Erg counters and samples, interrupts they
raise, and the record of a delivery discarded. Memory, caches, buffers and every other unit are the same; the queue of commands is
left to the claim about it. -/
def Unseen (n : Nat) (s t : State) : Prop :=
  t = { s with cores := t.cores, crs := t.crs, pairs := t.pairs, ras := t.ras, sealedRecs := t.sealedRecs, free := t.free,
               pending := t.pending } ∧
    (∀ m, Core.Alike (s.core m) (t.core m)) ∧ PairsAlike s t ∧ OnlyBanks [.fabric (coreStop n)] s t

/-- `t` is `s` but for the registers of Chip Register Space and the interrupt inputs of the pairs. -/
def OnlyRegs (s t : State) : Prop := t = { s with crs := t.crs, pairs := t.pairs, pending := t.pending } ∧ PairsAlike s t

end Machine
end Sys2Proof
end

