-- ==== Sys2Proof/WellFormed.lean ====
section
/-! DEFINITION. Well-formed commands: every number that names a unit, an entry or a line names one the part has. A command that names none
leaves the state as it is. -/

namespace Sys2Proof

/-- A stop of Table 01-1 has row 0 to 7 and column 0 to 12 (R23). -/
def stopOk (s : Nat) : Bool := decide (s / 16 < 8) && decide (s % 16 < 13)

/-- Agents: 144 main cores and four pairs. -/
def agentOk : Agent → Bool
  | .core n => decide (n < 144)
  | .cx k => decide (k < 4)

/-- Requesters. -/
def reqOk : Req → Bool
  | .core n _ _ => decide (n < 144)
  | .cx k => decide (k < 4)
  | .debug => true
  | .io n => decide (n < 12)

/-- Caches (Table 05-1). -/
def cacheOk : CacheId → Bool
  | .l1i n | .l1d n | .l2 n => decide (n < 144)
  | .l3 t => decide (t < 72)
  | .cxI k | .cxD k => decide (k < 4)

/-- Resources (R47). -/
def resourceOk : Resource → Bool
  | .tile t => decide (t < 72)
  | .channel n | .sweep n => decide (n < 16)
  | .io n => decide (n < 12)

/-- Units that hold translations. -/
def xlOk : XlUnit → Bool
  | .core n => decide (n < 144)
  | .cx k => decide (k < 4)
  | .iotu n => decide (n < 12)
  | .sweep e => decide (e < 16)

/-- Error banks (Table 14-6). -/
def bankOk : BankId → Bool
  | .core n => decide (n < 144)
  | .tile t => decide (t < 72)
  | .mc n => decide (n < 16)
  | .io n => decide (n < 12)
  | .sv k => decide (k < 4)
  | .fabric s => stopOk s

/-- Units with Erg counters. -/
def ergOk : ErgUnit → Bool
  | .core n => decide (n < 144)
  | .tile t => decide (t < 72)
  | .mc n => decide (n < 16)
  | .io n => decide (n < 12)
  | .probe s => stopOk s

/-- Whether a command is well-formed. -/
def WellFormed : Instr → Bool
  | .coldPowerOn _ => true
  | .fuseLoadComplete _ => true
  | .domainBringupStep d => decide (d < 16)
  | .bringupTimeout d => decide (d < 16)
  | .refclkLoss => true
  | .registerWrite r addr _ => reqOk r && decide (addr < 2 ^ 32)
  | .illegalEncoding a _ => agentOk a
  | .add a _ _ _ => agentOk a
  | .sub a _ _ _ => agentOk a
  | .and a _ _ _ => agentOk a
  | .or a _ _ _ => agentOk a
  | .xor a _ _ _ => agentOk a
  | .andn a _ _ _ => agentOk a
  | .sll a _ _ _ => agentOk a
  | .srl a _ _ _ => agentOk a
  | .sra a _ _ _ => agentOk a
  | .ror a _ _ _ => agentOk a
  | .addw a _ _ _ => agentOk a
  | .subw a _ _ _ => agentOk a
  | .clz a _ _ => agentOk a
  | .ctz a _ _ => agentOk a
  | .popc a _ _ => agentOk a
  | .bswap a _ _ => agentOk a
  | .min a _ _ _ => agentOk a
  | .max a _ _ _ => agentOk a
  | .minu a _ _ _ => agentOk a
  | .maxu a _ _ _ => agentOk a
  | .setcc a _ _ _ _ => agentOk a
  | .mul a _ _ _ => agentOk a
  | .mulh a _ _ _ => agentOk a
  | .mulhu a _ _ _ => agentOk a
  | .mulw a _ _ _ => agentOk a
  | .div a _ _ _ => agentOk a
  | .divu a _ _ _ => agentOk a
  | .rem a _ _ _ => agentOk a
  | .remu a _ _ _ => agentOk a
  | .divw a _ _ _ => agentOk a
  | .divuw a _ _ _ => agentOk a
  | .addi a _ _ _ => agentOk a
  | .addiw a _ _ _ => agentOk a
  | .andi a _ _ _ => agentOk a
  | .ori a _ _ _ => agentOk a
  | .xori a _ _ _ => agentOk a
  | .slti a _ _ _ => agentOk a
  | .sltiu a _ _ _ => agentOk a
  | .slli a _ _ _ => agentOk a
  | .srli a _ _ _ => agentOk a
  | .srai a _ _ _ => agentOk a
  | .rori a _ _ _ => agentOk a
  | .shori a _ _ _ => agentOk a
  | .addpc a _ _ _ => agentOk a
  | .bcc a _ _ _ _ => agentOk a
  | .bcci a _ _ _ _ => agentOk a
  | .b a _ => agentOk a
  | .bl a _ => agentOk a
  | .jr a _ _ _ => agentOk a
  | .lb a _ _ _ _ => agentOk a
  | .lbu a _ _ _ _ => agentOk a
  | .lh a _ _ _ _ => agentOk a
  | .lhu a _ _ _ _ => agentOk a
  | .lw a _ _ _ _ => agentOk a
  | .lwu a _ _ _ _ => agentOk a
  | .ld a _ _ _ _ => agentOk a
  | .ldp a _ _ _ _ => agentOk a
  | .sb a _ _ _ _ => agentOk a
  | .sh a _ _ _ _ => agentOk a
  | .sw a _ _ _ _ => agentOk a
  | .sd a _ _ _ _ => agentOk a
  | .sdp a _ _ _ _ => agentOk a
  | .vld a _ _ _ _ => agentOk a
  | .vst a _ _ _ _ => agentOk a
  | .cas a _ _ _ _ _ => agentOk a
  | .swp a _ _ _ _ _ => agentOk a
  | .ldadd a _ _ _ _ _ => agentOk a
  | .ldand a _ _ _ _ _ => agentOk a
  | .ldor a _ _ _ _ _ => agentOk a
  | .ldxor a _ _ _ _ _ => agentOk a
  | .ldmin a _ _ _ _ _ => agentOk a
  | .ldmax a _ _ _ _ _ => agentOk a
  | .ldminu a _ _ _ _ _ => agentOk a
  | .ldmaxu a _ _ _ _ _ => agentOk a
  | .lr a _ _ _ _ => agentOk a
  | .sc a _ _ _ _ _ => agentOk a
  | .lda a _ _ _ => agentOk a
  | .stl a _ _ _ => agentOk a
  | .vadd a _ _ _ _ _ => agentOk a
  | .vsub a _ _ _ _ _ => agentOk a
  | .vmul a _ _ _ _ _ => agentOk a
  | .vand a _ _ _ _ _ => agentOk a
  | .vor a _ _ _ _ _ => agentOk a
  | .vxor a _ _ _ _ _ => agentOk a
  | .vandn a _ _ _ _ _ => agentOk a
  | .vmin a _ _ _ _ _ => agentOk a
  | .vmax a _ _ _ _ _ => agentOk a
  | .vminu a _ _ _ _ _ => agentOk a
  | .vmaxu a _ _ _ _ _ => agentOk a
  | .vsll a _ _ _ _ _ => agentOk a
  | .vsrl a _ _ _ _ _ => agentOk a
  | .vsra a _ _ _ _ _ => agentOk a
  | .vadds a _ _ _ _ _ => agentOk a
  | .vaddus a _ _ _ _ _ => agentOk a
  | .vcmp a _ _ _ _ _ _ => agentOk a
  | .vsel a _ _ _ _ _ => agentOk a
  | .vbcast a _ _ _ _ => agentOk a
  | .vext a _ _ _ _ _ => agentOk a
  | .vins a _ _ _ _ _ => agentOk a
  | .vperm a _ _ _ _ _ => agentOk a
  | .vrsum a _ _ _ _ => agentOk a
  | .vrmin a _ _ _ _ => agentOk a
  | .vrmax a _ _ _ _ => agentOk a
  | .vrminu a _ _ _ _ => agentOk a
  | .vrmaxu a _ _ _ _ => agentOk a
  | .vldm a _ _ _ _ _ => agentOk a
  | .vstm a _ _ _ _ _ => agentOk a
  | .vfadd a _ _ _ _ _ => agentOk a
  | .vfsub a _ _ _ _ _ => agentOk a
  | .vfmul a _ _ _ _ _ => agentOk a
  | .vfdiv a _ _ _ _ _ => agentOk a
  | .vfma a _ _ _ _ _ => agentOk a
  | .vfmin a _ _ _ _ _ => agentOk a
  | .vfmax a _ _ _ _ _ => agentOk a
  | .vfsqrt a _ _ _ _ => agentOk a
  | .vfcvti a _ _ _ _ => agentOk a
  | .vfcvtf a _ _ _ _ => agentOk a
  | .pand a _ _ _ _ _ => agentOk a
  | .por a _ _ _ _ _ => agentOk a
  | .pxor a _ _ _ _ _ => agentOk a
  | .pnot a _ _ _ _ => agentOk a
  | .pcnt a _ _ _ _ => agentOk a
  | .mfs a _ _ => agentOk a
  | .mts a _ _ => agentOk a
  | .scall a _ => agentOk a
  | .hcall a _ => agentOk a
  | .fcall a _ => agentOk a
  | .brk a _ => agentOk a
  | .gate a _ => agentOk a
  | .tret a => agentOk a
  | .wfi a => agentOk a
  | .sync a => agentOk a
  | .rand a _ _ => agentOk a
  | .fence a _ => agentOk a
  | .dcClean a _ => agentOk a
  | .dcCleaninv a _ => agentOk a
  | .dcInv a _ => agentOk a
  | .dcZero a _ => agentOk a
  | .tlbi a _ _ _ _ => agentOk a
  | .retw a => agentOk a
  | .interruptEntry n => decide (n < 144)
  | .partitionStopExit n => decide (n < 144)
  | .wfiWake n => decide (n < 144)
  | .c3EntryComplete n => decide (n < 144)
  | .c3Wake n => decide (n < 144)
  | .tlbFill n _ => decide (n < 144)
  | .storeWriteL1d n => decide (n < 144)
  | .l1dFill n => decide (n < 144)
  | .heldLoadRelease n => decide (n < 144)
  | .prefetchIssue n _ line => decide (n < 144) && decide (line < 2 ^ 46)
  | .rds n line key => decide (n < 144) && decide (line < 2 ^ 46) && decide (key < 4096)
  | .rdo n line key => decide (n < 144) && decide (line < 2 ^ 46) && decide (key < 4096)
  | .upg n line key => decide (n < 144) && decide (line < 2 ^ 46) && decide (key < 4096)
  | .wbk n line => decide (n < 144) && decide (line < 2 ^ 46)
  | .wcln n line => decide (n < 144) && decide (line < 2 ^ 46)
  | .evc n line => decide (n < 144) && decide (line < 2 ^ 46)
  | .rdonce src line key => stopOk src && decide (line < 2 ^ 46) && decide (key < 4096)
  | .wrline src line key _ _ => stopOk src && decide (line < 2 ^ 46) && decide (key < 4096)
  | .wrptl src line key _ _ => stopOk src && decide (line < 2 ^ 46) && decide (key < 4096)
  | .backgroundClean c => cacheOk c
  | .snps n line => decide (n < 144) && decide (line < 2 ^ 46)
  | .snpif n line => decide (n < 144) && decide (line < 2 ^ 46)
  | .snpi n line => decide (n < 144) && decide (line < 2 ^ 46)
  | .snponce n line => decide (n < 144) && decide (line < 2 ^ 46)
  | .wbp n line => decide (n < 144) && decide (line < 2 ^ 46)
  | .snpack n line => decide (n < 144) && decide (line < 2 ^ 46)
  | .snpdat n line => decide (n < 144) && decide (line < 2 ^ 46)
  | .wback n line => decide (n < 144) && decide (line < 2 ^ 46)
  | .cmp stop tid => stopOk stop && decide (tid < 4096)
  | .cmpm stop tid => stopOk stop && decide (tid < 4096)
  | .dats stop tid => stopOk stop && decide (tid < 4096)
  | .date stop tid => stopOk stop && decide (tid < 4096)
  | .datm stop tid => stopOk stop && decide (tid < 4096)
  | .datrd stop tid => stopOk stop && decide (tid < 4096)
  | .rddev src stop addr _ => stopOk src && stopOk stop && decide (addr < 2 ^ 52)
  | .memrd mc line key _ => decide (mc < 16) && decide (line < 2 ^ 46) && decide (key < 4096)
  | .memwr mc line key _ _ _ _ => decide (mc < 16) && decide (line < 2 ^ 46) && decide (key < 4096)
  | .shinc mc line => decide (mc < 16) && decide (line < 2 ^ 46)
  | .shdec mc line => decide (mc < 16) && decide (line < 2 ^ 46)
  | .l2TagRecovery n set => decide (n < 144) && decide (set < 1024)
  | .tagrecov slice n set => decide (slice < 72) && decide (n < 144) && decide (set < 1024)
  | .ceWindowRoll c way => cacheOk c && decide (way < 16)
  | .tcWaydisWrite r tile _ _ => reqOk r && decide (tile < 72)
  | .cchModeWrite r _ => reqOk r
  | .dbCfgWrite r _ => reqOk r
  | .remoteGrant mc line _ => decide (mc < 16) && decide (line < 2 ^ 46)
  | .socketSnoop mc line _ => decide (mc < 16) && decide (line < 2 ^ 46)
  | .evictionReport mc line => decide (mc < 16) && decide (line < 2 ^ 46)
  | .samEntryWrite r _ i _ => reqOk r && decide (i < 32)
  | .samupd stop => stopOk stop
  | .resourceOutOfService r x => reqOk r && resourceOk x
  | .flitArrive stop _ _ => stopOk stop
  | .islandReady stop => stopOk stop
  | .creditResync stop => stopOk stop
  | .watchdogFire stop tid => stopOk stop && decide (tid < 4096)
  | .fenceRequest stop src => stopOk stop && stopOk src
  | .fencemark stop src _ => stopOk stop && stopOk src
  | .ownPortStall stop => stopOk stop
  | .broadcastTimeout stop _ => stopOk stop
  | .bcack stop src _ => stopOk stop && stopOk src
  | .niRtWrite r stop d _ => reqOk r && stopOk stop && decide (d < 256)
  | .prbCtlWrite r stop _ => reqOk r && stopOk stop
  | .regrd r addr tid => reqOk r && decide (addr < 2 ^ 32) && decide (tid < 4096)
  | .regwr r addr _ _ tid => reqOk r && decide (addr < 2 ^ 32) && decide (tid < 4096)
  | .regcmp stop tid => stopOk stop && decide (tid < 4096)
  | .intr src n _ vec => stopOk src && decide (n < 144) && decide (vec < 256)
  | .tlbiBroadcast u src => xlOk u && stopOk src
  | .potinv u => xlOk u
  | .potInvWrite r _ => reqOk r
  | .potInvComplete => true
  | .dramCommandIssue mc sub _ _ => decide (mc < 16) && decide (sub < 2)
  | .refreshDue mc sub => decide (mc < 16) && decide (sub < 2)
  | .rhWindowClear mc => decide (mc < 16)
  | .urgencyPromotion mc sub _ _ => decide (mc < 16) && decide (sub < 2)
  | .dramReadComplete mc sub _ => decide (mc < 16) && decide (sub < 2)
  | .sparingCopyEnd mc rank sub => decide (mc < 16) && decide (rank < 16) && decide (sub < 2)
  | .alertN mc _ => decide (mc < 16)
  | .patrolRead mc _ _ => decide (mc < 16)
  | .softPpr mc rank bank _ => decide (mc < 16) && decide (rank < 16) && decide (bank < 32)
  | .keyQuery r slot => reqOk r && decide (slot < 4096)
  | .keyLoad r slot => reqOk r && decide (slot < 4096)
  | .keyErase r slot => reqOk r && decide (slot < 4096)
  | .keyEraseAll r => reqOk r
  | .keyCommandComplete => true
  | .keyStatusClear r => reqOk r
  | .swqEnable r q => reqOk r && decide (q < 1024)
  | .swqDisable r q => reqOk r && decide (q < 1024)
  | .swqReset r q => reqOk r && decide (q < 1024)
  | .swqDb q => decide (q < 1024)
  | .qcbPoll q => decide (q < 1024)
  | .qcbReadReturn q _ => decide (q < 1024)
  | .swqReldb q _ => decide (q < 1024)
  | .jobStart e => decide (e < 16)
  | .sweepUnit e => decide (e < 16)
  | .jobResume e => decide (e < 16)
  | .suspensionTimeout e q => decide (e < 16) && decide (q < 1024)
  | .sweepErrorReport e q => decide (e < 16) && decide (q < 1024)
  | .jobEnd q => decide (q < 1024)
  | .swStop r e => reqOk r && decide (e < 16)
  | .swRun r e => reqOk r && decide (e < 16)
  | .engineStopComplete e => decide (e < 16)
  | .swuLoad r _ => reqOk r
  | .swuUnload r _ => reqOk r
  | .swuModuleChecked => true
  | .swuHoldReached => true
  | .swuHoldTimeout => true
  | .ucodeNop e _ => decide (e < 16)
  | .ucodeAdd e _ _ _ _ => decide (e < 16)
  | .ucodeSub e _ _ _ _ => decide (e < 16)
  | .ucodeAnd e _ _ _ _ => decide (e < 16)
  | .ucodeOr e _ _ _ _ => decide (e < 16)
  | .ucodeXor e _ _ _ _ => decide (e < 16)
  | .ucodeShl e _ _ _ _ => decide (e < 16)
  | .ucodeShr e _ _ _ _ => decide (e < 16)
  | .ucodeSar e _ _ _ _ => decide (e < 16)
  | .ucodeAddi e _ _ _ _ => decide (e < 16)
  | .ucodeMovk e _ _ _ _ => decide (e < 16)
  | .ucodeCmp e _ _ _ => decide (e < 16)
  | .ucodeCmpi e _ _ _ => decide (e < 16)
  | .ucodeParam e _ _ _ => decide (e < 16)
  | .ucodeMul e _ _ _ _ => decide (e < 16)
  | .xadd e _ _ _ _ => decide (e < 16)
  | .xsub e _ _ _ _ => decide (e < 16)
  | .xand e _ _ _ _ => decide (e < 16)
  | .xior e _ _ _ _ => decide (e < 16)
  | .xxor e _ _ _ _ => decide (e < 16)
  | .xshri e _ _ _ _ => decide (e < 16)
  | .xshli e _ _ _ _ => decide (e < 16)
  | .xmul e _ _ _ _ => decide (e < 16)
  | .xcmp e _ _ _ _ _ _ => decide (e < 16)
  | .mop e _ _ _ _ _ => decide (e < 16)
  | .xsel e _ _ _ _ _ => decide (e < 16)
  | .xbcast e _ _ _ => decide (e < 16)
  | .xext e _ _ _ _ => decide (e < 16)
  | .xcrc e _ _ _ => decide (e < 16)
  | .xgath e _ _ _ _ _ => decide (e < 16)
  | .ucodeIn e _ _ _ => decide (e < 16)
  | .sel e _ _ => decide (e < 16)
  | .putv e _ _ _ => decide (e < 16)
  | .ucodeLds e _ _ _ _ => decide (e < 16)
  | .ucodeSts e _ _ _ _ => decide (e < 16)
  | .ucodeBr e _ _ _ _ _ => decide (e < 16)
  | .ucodeCall e _ _ => decide (e < 16)
  | .ucodeRet e _ => decide (e < 16)
  | .ucodeDone e _ => decide (e < 16)
  | .ucodeFault e _ _ => decide (e < 16)
  | .loada e _ => decide (e < 16)
  | .loadb e _ => decide (e < 16)
  | .rowinfo e _ => decide (e < 16)
  | .flush e _ => decide (e < 16)
  | .zero e _ => decide (e < 16)
  | .scrcrc e _ => decide (e < 16)
  | .sort e _ => decide (e < 16)
  | .unitBudgetExpiry e => decide (e < 16)
  | .cxsCtlReset r k => reqOk r && decide (k < 4)
  | .cxsCtlHold r k _ => reqOk r && decide (k < 4)
  | .cxInterruptEntry k => decide (k < 4)
  | .spill k => decide (k < 4)
  | .cxDivideComplete k => decide (k < 4)
  | .cxCacheRefill k _ => decide (k < 4)
  | .reachRead k slot _ => decide (k < 4) && decide (slot < 4)
  | .reachWrite k slot _ => decide (k < 4) && decide (slot < 4)
  | .reachComplete k slot _ _ => decide (k < 4) && decide (slot < 4)
  | .lockstepMismatch k => decide (k < 4)
  | .pairFaultReport k _ => decide (k < 4)
  | .pvValidate r addr => reqOk r && decide (addr < 2 ^ 52)
  | .pvStop r addr => reqOk r && decide (addr < 2 ^ 52)
  | .pvRetire r addr => reqOk r && decide (addr < 2 ^ 52)
  | .cx3Load r => reqOk r
  | .cx3MbdbIn r => reqOk r
  | .cx3MbdbOut r => reqOk r
  | .pwrfailNFall => true
  | .pwrfailNRise => true
  | .finishTrigger => true
  | .finForce r => reqOk r
  | .finishMessage stop => stopOk stop
  | .flushComplete => true
  | .finishCopyComplete => true
  | .finCx3Done r => reqOk r
  | .cx3WindowExpiry => true
  | .finishRecord => true
  | .catchStart _ _ => true
  | .catchRelease => true
  | .powerGoodLoss d => decide (d < 16)
  | .pwrDomCtlWrite r _ => reqOk r
  | .grantUpdate _ _ => true
  | .thermalSample stop _ => stopOk stop
  | .packageIdleEntry => true
  | .packageIdleExit => true
  | .pkgReqSleep r => reqOk r
  | .pkgReqRun r => reqOk r
  | .sleepEntryStart => true
  | .sleepEntryComplete => true
  | .packageWake _ _ => true
  | .packageRunReached => true
  | .selfRefreshReturn mc => decide (mc < 16)
  | .aoTimerWrite r _ => reqOk r
  | .aoTimerExpiry => true
  | .gpioWake pin => decide (pin < 32)
  | .linkWake io => decide (io < 12)
  | .pwrRstWarm r => reqOk r
  | .pwrRstCold r => reqOk r
  | .tileReset r tile => reqOk r && decide (tile < 72)
  | .tileResetComplete tile => decide (tile < 72)
  | .tileRelease r tile => reqOk r && decide (tile < 72)
  | .ioCfgWrite r io _ => reqOk r && decide (io < 12)
  | .ioRstReset r io => reqOk r && decide (io < 12)
  | .linkUp io link _ _ _ _ => decide (io < 12) && decide (link < 4)
  | .linkDown io link => decide (io < 12) && decide (link < 4)
  | .socketLinkTrained io _ _ _ => decide (io < 12)
  | .perstNInput io _ => decide (io < 12)
  | .inboundPostedWrite io _ _ => decide (io < 12)
  | .inboundReadRequest io _ => decide (io < 12)
  | .inboundAtomic io _ _ _ _ => decide (io < 12)
  | .interruptMessage io _ _ => decide (io < 12)
  | .completionReceived io _ _ _ => decide (io < 12)
  | .completionTimeout io _ => decide (io < 12)
  | .tagHoldExpiry io _ => decide (io < 12)
  | .iotuInvWrite r _ => reqOk r
  | .iotuInvComplete => true
  | .epActiveChange r _ => reqOk r
  | .epVfWrite r _ _ _ => reqOk r
  | .vfDoorbellWrite _ _ _ => true
  | .mailboxSlotWrite _ _ _ => true
  | .mbDbWrite _ _ => true
  | .mbPendRead _ => true
  | .epRtailWrite r io _ _ => reqOk r && decide (io < 12)
  | .ringDescriptor io _ _ => decide (io < 12)
  | .epMboxSend r io _ _ => reqOk r && decide (io < 12)
  | .epSend r io _ => reqOk r && decide (io < 12)
  | .msixUnmask _ _ => true
  | .bmeClear _ => true
  | .bmeSet _ => true
  | .flrVf _ => true
  | .flrPf => true
  | .flrComplete _ => true
  | .xVsend n _ _ => decide (n < 144)
  | .coreDoorbellWrite r n _ _ _ _ => reqOk r && decide (n < 144)
  | .hVheldpMove n entry _ => decide (n < 144) && decide (entry < 16)
  | .errorRecord b _ => bankOk b
  | .errInjArm r b _ => reqOk r && bankOk b
  | .rasRecordService b slot => bankOk b && decide (slot < 4)
  | .correctedLogFlush => true
  | .securityAlarm _ => true
  | .alarmMessage mc => decide (mc < 16)
  | .debugTokenSubmit r => reqOk r
  | .trngOutRead r => reqOk r
  | .trngHealthFailure _ => true
  | .trngRecoveryComplete => true
  | .drbgReseed => true
  | .bootStart => true
  | .bootCommit => true
  | .coreRelease => true
  | .bootRcvData r _ => reqOk r
  | .bootRcvErase r => reqOk r
  | .bootRcvProgram r => reqOk r
  | .bootRcvColdReset r => reqOk r
  | .muxFnWrite r f _ => reqOk r && decide (f < 10)
  | .pinSwitchComplete pin => decide (pin < 32)
  | .counterOverflow u c => ergOk u && decide (c < 9)
  | .sampleRingWrite n => decide (n < 144)
  | .sampleRecordRead n _ => decide (n < 144)
  | .ergFreeze r => reqOk r
  | .ergRelease r => reqOk r
  | .ergSnapshot r => reqOk r
  | .freezeMessage stop => stopOk stop
  | .releaseMessage stop => stopOk stop
  | .snapshotMessage stop _ => stopOk stop
  | .debugRegrd _ => true
  | .debugRegwr _ => true
  | .jtagBypass => true
  | .jtagSamplePreload => true
  | .jtagExtest => true
  | .jtagClamp => true
  | .jtagHighz => true
  | .testLogicReset => true
  | .holdupOkChange _ => true
  | .refclkReturn => true
  | .suppliesRemoved => true
  | .finishForwarding io => decide (io < 12)
  | .freezeAndSnapshotForwarding _ _ => true
  | .debugHaltRequest n => decide (n < 144)
  | .perstNDrivenHigh io link => decide (io < 12) && decide (link < 4)
  | .ergGctlBusyEnd => true
  | .dbgPresentNChange _ => true
  | .configurationRequest _ _ _ => true

end Sys2Proof
end

