-- ==== Sys2Proof/Certificates/Slice0/Obligations.lean ====
section
/-! DEFINITION. The statements for the provers, by chapter. A statement of the form "there is t with exec c s = .next t and …" says that
the command completes and what it leaves; `Unseen n s' t` says that `t` is `s'` but for what monitoring core `n` leaves. -/

open Sys2Proof Sys2Proof.Machine

/-! ## The queue and the timebase -/

/-- A step takes the command at the front of the queue and runs it on the state with the queue's rest. -/
def Obligations.StepRunsFront : Prop :=
  ∀ (c : Instr) (rest : List Instr) (s : State), s.pending = c :: rest → step s = exec c { s with pending := rest }

/-- On an empty queue the timebase ticks: the model's choice (log entry 1). -/
def Obligations.EmptyQueueTicks : Prop :=
  ∀ s : State, s.pending = [] → s.power.off = false →
    ∃ t : State, step s = .next t ∧ t.timeUs = s.timeUs + 1 ∧ t.pending = [] ∧ t.dram = s.dram ∧ t.lines = s.lines

/-! ## Integer instructions (02.4, 02.11) -/

namespace Sys2Proof.Claims

/-- The low 32 bits of a sum, difference or product, sign-extended. -/
def word (x : BitVec 32) : W64 := x.signExtend 64

/-- What Table 02-5 and R56 to R58 give for rs1 and rs2 on a main core. -/
def coreRRR : List ((Agent → RegNo → RegNo → RegNo → Instr) × (W64 → W64 → W64)) := [
  (.add, fun x y => x + y), (.sub, fun x y => x - y), (.and, fun x y => x &&& y), (.or, fun x y => x ||| y),
  (.xor, fun x y => x ^^^ y), (.andn, fun x y => x &&& ~~~y),
  (.sll, fun x y => x <<< (y.toNat % 64)), (.srl, fun x y => x >>> (y.toNat % 64)),
  (.sra, fun x y => x.sshiftRight (y.toNat % 64)), (.ror, fun x y => x.rotateRight (y.toNat % 64)),
  (.addw, fun x y => word (x.setWidth 32 + y.setWidth 32)), (.subw, fun x y => word (x.setWidth 32 - y.setWidth 32)),
  (.min, fun x y => if x.toInt < y.toInt then x else y), (.max, fun x y => if x.toInt < y.toInt then y else x),
  (.minu, fun x y => if x.toNat < y.toNat then x else y), (.maxu, fun x y => if x.toNat < y.toNat then y else x),
  (.mul, fun x y => x * y), (.mulh, fun x y => BitVec.ofInt 64 (x.toInt * y.toInt / 2 ^ 64)),
  (.mulhu, fun x y => BitVec.ofNat 64 (x.toNat * y.toNat / 2 ^ 64)), (.mulw, fun x y => word (x.setWidth 32 * y.setWidth 32)),
  (.div, fun x y => if y = 0 then -1 else x.sdiv y), (.divu, fun x y => if y = 0 then -1 else x / y),
  (.rem, fun x y => if y = 0 then x else x.srem y), (.remu, fun x y => if y = 0 then x else x % y),
  (.divw, fun x y => word (if y.setWidth 32 = 0#32 then -1 else (x.setWidth 32).sdiv (y.setWidth 32))),
  (.divuw, fun x y => word (if y.setWidth 32 = 0#32 then -1 else x.setWidth 32 / y.setWidth 32))]

/-- What they give for rs1 and the 14-bit immediate. -/
def coreImm : List ((Agent → RegNo → RegNo → BitVec 14 → Instr) × (W64 → BitVec 14 → W64)) := [
  (.addi, fun x i => x + i.signExtend 64), (.addiw, fun x i => word (x.setWidth 32 + i.signExtend 32)),
  (.andi, fun x i => x &&& i.signExtend 64), (.ori, fun x i => x ||| i.setWidth 64), (.xori, fun x i => x ^^^ i.setWidth 64),
  (.slti, fun x i => if x.toInt < (i.signExtend 64).toInt then 1 else 0),
  (.sltiu, fun x i => if x.toNat < (i.signExtend 64).toNat then 1 else 0),
  (.shori, fun x i => (x <<< 14) ||| i.setWidth 64)]

/-- What they give for rs1 and a shift amount. -/
def coreShift : List ((Agent → RegNo → RegNo → BitVec 6 → Instr) × (W64 → Nat → W64)) := [
  (.slli, fun x n => x <<< n), (.srli, fun x n => x >>> n), (.srai, fun x n => x.sshiftRight n),
  (.rori, fun x n => x.rotateRight n)]

/-- The KA-C forms of the same, on 32-bit registers (Table 02-15). -/
def pairRRR : List ((Agent → RegNo → RegNo → RegNo → Instr) × (W32 → W32 → W32)) := [
  (.add, fun x y => x + y), (.sub, fun x y => x - y), (.and, fun x y => x &&& y), (.or, fun x y => x ||| y),
  (.xor, fun x y => x ^^^ y), (.andn, fun x y => x &&& ~~~y),
  (.sll, fun x y => x <<< (y.toNat % 32)), (.srl, fun x y => x >>> (y.toNat % 32)),
  (.sra, fun x y => x.sshiftRight (y.toNat % 32)), (.ror, fun x y => x.rotateRight (y.toNat % 32)),
  (.min, fun x y => if x.toInt < y.toInt then x else y), (.max, fun x y => if x.toInt < y.toInt then y else x),
  (.minu, fun x y => if x.toNat < y.toNat then x else y), (.maxu, fun x y => if x.toNat < y.toNat then y else x),
  (.mul, fun x y => x * y), (.mulh, fun x y => BitVec.ofInt 32 (x.toInt * y.toInt / 2 ^ 32)),
  (.mulhu, fun x y => BitVec.ofNat 32 (x.toNat * y.toNat / 2 ^ 32))]

def pairImm : List ((Agent → RegNo → RegNo → BitVec 14 → Instr) × (W32 → BitVec 14 → W32)) := [
  (.addi, fun x i => x + i.signExtend 32), (.andi, fun x i => x &&& i.signExtend 32), (.ori, fun x i => x ||| i.setWidth 32),
  (.xori, fun x i => x ^^^ i.setWidth 32), (.slti, fun x i => if x.toInt < (i.signExtend 32).toInt then 1 else 0),
  (.sltiu, fun x i => if x.toNat < (i.signExtend 32).toNat then 1 else 0), (.shori, fun x i => (x <<< 14) ||| i.setWidth 32)]

def pairShift : List ((Agent → RegNo → RegNo → BitVec 6 → Instr) × (W32 → Nat → W32)) := [
  (.slli, fun x n => x <<< n), (.srli, fun x n => x >>> n), (.srai, fun x n => x.sshiftRight n),
  (.rori, fun x n => x.rotateRight n)]

/-- The condition codes of Table 02-7 on signed and unsigned numbers and on bit b[5:0]. -/
def cond {w : Nat} (c : BitVec 3) (a b : BitVec w) : Prop :=
  match c.toNat with
  | 0 => a = b
  | 1 => a ≠ b
  | 2 => a.toInt < b.toInt
  | 3 => b.toInt ≤ a.toInt
  | 4 => a.toNat < b.toNat
  | 5 => b.toNat ≤ a.toNat
  | 6 => a.getLsbD (b.toNat % 64) = true
  | _ => a.getLsbD (b.toNat % 64) = false

/-- Core `n` retires an instruction that leaves register rd at `v` and falls through: nothing else a program sees changes; g0 takes
no value. -/
def Writes (n : Nat) (rd : RegNo) (v : W64) (s : State) (o : Host.Outcome State Fault Refusal) : Prop :=
  ∃ t : State, o = .next t ∧ Unseen n (s.setCore n ((s.core n).setG rd.toNat v).advance) t

/-- Pair `k` is ready to perform an instruction that reads and writes some register fields: its fetch is at hand, every field names a
register, and the divider holds none of them (R416). -/
def PairTakes (s : State) (k : Nat) (reads writes : List RegNo) : Prop :=
  pairReady s k = true ∧ cxFetch (s.modPair k fun p => { p with waiting := false }) k = .ready ∧ (reads ++ writes).any fieldBad = false ∧ (s.pair k).stalls reads writes = false

/-- Only pair `k` has changed, to `p`, but for interrupt inputs latched. -/
def PairBecomes (k : Nat) (p : Pair) (s : State) (o : Host.Outcome State Fault Refusal) : Prop :=
  ∃ t : State, o = .next t ∧ t = { s with pairs := t.pairs } ∧ PairsAlike (s.setPair k { p with waiting := false }) t

end Sys2Proof.Claims

open Sys2Proof.Claims

/-- Integer instructions of a main core: result, completion and frame. -/
def Obligations.CoreIntegerResults : Prop :=
  ∀ (n : Nat) (rd rs1 rs2 : RegNo) (s : State), coreReady s n = true →
    (∀ e ∈ coreRRR, Writes n rd (e.2 ((s.core n).getG rs1.toNat) ((s.core n).getG rs2.toNat)) s (exec (e.1 (.core n) rd rs1 rs2) s)) ∧
    (∀ e ∈ coreImm, ∀ i, Writes n rd (e.2 ((s.core n).getG rs1.toNat) i) s (exec (e.1 (.core n) rd rs1 i) s)) ∧
    (∀ e ∈ coreShift, ∀ sh : BitVec 6, Writes n rd (e.2 ((s.core n).getG rs1.toNat) sh.toNat) s (exec (e.1 (.core n) rd rs1 sh) s)) ∧
    (∀ c v, (cond c ((s.core n).getG rs1.toNat) ((s.core n).getG rs2.toNat) → v = 1) →
      (¬cond c ((s.core n).getG rs1.toNat) ((s.core n).getG rs2.toNat) → v = 0) →
      Writes n rd v s (exec (.setcc (.core n) c rd rs1 rs2) s)) ∧
    (∀ shift imm, Writes n rd ((s.core n).pc + (if shift then (imm.signExtend 64) <<< 14 else imm.signExtend 64)) s
      (exec (.addpc (.core n) rd shift imm) s))

/-- CLZ, CTZ, POPC and BSWAP, by what their results are. -/
def Obligations.CoreCounts : Prop :=
  ∀ (n : Nat) (rd rs1 : RegNo) (s : State), coreReady s n = true →
    let x := (s.core n).getG rs1.toNat
    (∃ v : Nat, v ≤ 64 ∧ x.toNat < 2 ^ (64 - v) ∧ (v < 64 → 2 ^ (63 - v) ≤ x.toNat) ∧
      Writes n rd (BitVec.ofNat 64 v) s (exec (.clz (.core n) rd rs1) s)) ∧
    (∃ v : Nat, v ≤ 64 ∧ x.toNat % 2 ^ v = 0 ∧ (v < 64 → x.getLsbD v = true) ∧
      Writes n rd (BitVec.ofNat 64 v) s (exec (.ctz (.core n) rd rs1) s)) ∧
    Writes n rd (BitVec.ofNat 64 ((List.range 64).countP fun i => x.getLsbD i)) s (exec (.popc (.core n) rd rs1) s) ∧
    (∃ v : W64, (∀ i, i < 8 → v.extractLsb' (8 * i) 8 = x.extractLsb' (56 - 8 * i) 8) ∧
      Writes n rd v s (exec (.bswap (.core n) rd rs1) s))

/-- Integer instructions of a pair. -/
def Obligations.PairIntegerResults : Prop :=
  ∀ (k : Nat) (rd rs1 rs2 : RegNo) (s : State),
    let p := s.pair k
    (PairTakes s k [rs1, rs2] [rd] →
      (∀ e ∈ pairRRR, PairBecomes k (p.setR rd (e.2 (p.getR rs1) (p.getR rs2))).advance s (exec (e.1 (.cx k) rd rs1 rs2) s)) ∧
      (∀ c v, (cond c (p.getR rs1) (p.getR rs2) → v = 1) → (¬cond c (p.getR rs1) (p.getR rs2) → v = 0) →
        PairBecomes k (p.setR rd v).advance s (exec (.setcc (.cx k) c rd rs1 rs2) s)) ∧
      (p.div = none → ∀ x y : W32, x = p.getR rs1 → y = p.getR rs2 →
        PairBecomes k { p with div := some ⟨0, rd, rs1, rs2, p.cwp, if y = 0 then -1 else x.sdiv y⟩ }.advance s (exec (.div (.cx k) rd rs1 rs2) s) ∧
        PairBecomes k { p with div := some ⟨1, rd, rs1, rs2, p.cwp, if y = 0 then -1 else x / y⟩ }.advance s (exec (.divu (.cx k) rd rs1 rs2) s) ∧
        PairBecomes k { p with div := some ⟨2, rd, rs1, rs2, p.cwp, if y = 0 then x else x.srem y⟩ }.advance s (exec (.rem (.cx k) rd rs1 rs2) s) ∧
        PairBecomes k { p with div := some ⟨3, rd, rs1, rs2, p.cwp, if y = 0 then x else x % y⟩ }.advance s (exec (.remu (.cx k) rd rs1 rs2) s))) ∧
    (PairTakes s k [rs1] [rd] →
      (∀ e ∈ pairImm, ∀ i, PairBecomes k (p.setR rd (e.2 (p.getR rs1) i)).advance s (exec (e.1 (.cx k) rd rs1 i) s)) ∧
      (∀ e ∈ pairShift, ∀ sh : BitVec 6,
        PairBecomes k (p.setR rd (e.2 (p.getR rs1) (sh.toNat % 32))).advance s (exec (e.1 (.cx k) rd rs1 sh) s))) ∧
    (PairTakes s k [] [rd] → ∀ shift imm,
      PairBecomes k (p.setR rd (p.pc + (if shift then (imm.signExtend 32) <<< 14 else imm.signExtend 32))).advance s
        (exec (.addpc (.cx k) rd shift imm) s))


/-! ## Branches (02.5, 02.11) -/

namespace Sys2Proof.Claims

/-- No fetch fault waits at `pc` for core `n` at its level: where the translation is at hand, it permits the fetch and names no
device. -/
def LandsAt (s : State) (n : Nat) (pc : W64) : Prop :=
  ∀ e, tlbHit s n (coreCtx s n (s.core n).level) pc.toNat = some e →
    tlbFault e (coreCtx s n (s.core n).level) pc.toNat .fetch = none ∧ e.mt ≠ .device

/-- Core `n`, with the registers of `d`, goes on at `target`, its predictors aside. -/
def GoesTo (n : Nat) (d : Core) (target : W64) (s : State) (o : Host.Outcome State Fault Refusal) : Prop :=
  ∃ p t, o = .next t ∧ Unseen n (s.setCore n { d with pc := target, pred := p }) t

/-- The operand a bit test or comparison with an immediate uses (R59). -/
def imm8 (w : Nat) (c : BitVec 3) (i : Byte) : BitVec w := if c.toNat < 4 then i.signExtend w else i.setWidth w

end Sys2Proof.Claims

/-- Branches of a main core whose target is aligned and whose first fetch meets no fault. -/
def Obligations.CoreBranches : Prop :=
  ∀ (n : Nat) (s : State), coreReady s n = true →
    let c := s.core n
    (∀ cd r1 r2 (off : BitVec 12), (cond cd (c.getG r1.toNat) (c.getG r2.toNat) → LandsAt s n (c.pc + 4 * off.signExtend 64) →
        GoesTo n c (c.pc + 4 * off.signExtend 64) s (exec (.bcc (.core n) cd r1 r2 off) s)) ∧
      (¬cond cd (c.getG r1.toNat) (c.getG r2.toNat) → LandsAt s n (c.pc + 4) → GoesTo n c (c.pc + 4) s (exec (.bcc (.core n) cd r1 r2 off) s))) ∧
    (∀ cd r1 i (off : BitVec 9), (cd.toNat < 6 ∨ i.toNat < 64) →
      (cond cd (c.getG r1.toNat) (imm8 64 cd i) → LandsAt s n (c.pc + 4 * off.signExtend 64) →
        GoesTo n c (c.pc + 4 * off.signExtend 64) s (exec (.bcci (.core n) cd r1 i off) s)) ∧
      (¬cond cd (c.getG r1.toNat) (imm8 64 cd i) → LandsAt s n (c.pc + 4) → GoesTo n c (c.pc + 4) s (exec (.bcci (.core n) cd r1 i off) s))) ∧
    (∀ off : BitVec 24, LandsAt s n (c.pc + 4 * off.signExtend 64) →
      GoesTo n c (c.pc + 4 * off.signExtend 64) s (exec (.b (.core n) off) s) ∧
      GoesTo n (c.setG 31 (c.pc + 4)) (c.pc + 4 * off.signExtend 64) s (exec (.bl (.core n) off) s)) ∧
    (∀ rd r1 (i : BitVec 14), (c.getG r1.toNat + i.signExtend 64).toNat % 4 = 0 → LandsAt s n (c.getG r1.toNat + i.signExtend 64) →
      GoesTo n (c.setG rd.toNat (c.pc + 4)) (c.getG r1.toNat + i.signExtend 64) s (exec (.jr (.core n) rd r1 i) s))

/-- Branches and window instructions of a pair that need neither spill nor fill. -/
def Obligations.PairBranches : Prop :=
  ∀ (k : Nat) (s : State), let p := s.pair k
    (∀ cd r1 r2 (off : BitVec 12), PairTakes s k [r1, r2] [] →
      (cond cd (p.getR r1) (p.getR r2) → PairBecomes k { p with pc := p.pc + 4 * off.signExtend 32 } s (exec (.bcc (.cx k) cd r1 r2 off) s)) ∧
      (¬cond cd (p.getR r1) (p.getR r2) → PairBecomes k p.advance s (exec (.bcc (.cx k) cd r1 r2 off) s))) ∧
    (∀ cd r1 i (off : BitVec 9), PairTakes s k [r1] [] → (cd.toNat < 6 ∨ i.toNat < 64) →
      (cond cd (p.getR r1) (imm8 32 cd i) → PairBecomes k { p with pc := p.pc + 4 * off.signExtend 32 } s (exec (.bcci (.cx k) cd r1 i off) s)) ∧
      (¬cond cd (p.getR r1) (imm8 32 cd i) → PairBecomes k p.advance s (exec (.bcci (.cx k) cd r1 i off) s))) ∧
    (∀ rd r1 (i : BitVec 14), PairTakes s k [r1] [rd] → (p.getR r1 + i.signExtend 32).toNat % 4 = 0 →
      PairBecomes k { p.setR rd (p.pc + 4) with pc := p.getR r1 + i.signExtend 32 } s (exec (.jr (.cx k) rd r1 i) s)) ∧
    (∀ off : BitVec 24, PairTakes s k [] [] →
      PairBecomes k { p with pc := p.pc + 4 * off.signExtend 32 } s (exec (.b (.cx k) off) s) ∧
      (p.cwp ≠ 0 → p.frames.length < 2 → PairBecomes k { p.setW (p.cwp % 7 + 1) 15 (p.pc + 4) with
        cwp := p.cwp % 7 + 1, frames := p.frames ++ [p.cwp], pc := p.pc + 4 * off.signExtend 32 } s (exec (.bl (.cx k) off) s))) ∧
    (∀ fs w, PairTakes s k [] [] → p.cwp ≠ 0 → (p.getW p.cwp 15).toNat % 4 = 0 → p.frames = fs ++ [w] →
      PairBecomes k { p with cwp := prevWin p.cwp, frames := fs, pc := p.getW p.cwp 15 } s (exec (.retw (.cx k)) s))

/-- The spill engine in calls and returns: where the sixteen registers of a frame go and come from. -/
def Obligations.PairSpillAndFill : Prop :=
  ∀ (k : Nat) (s : State), let p := s.pair k
    PairTakes s k [] [] → p.cwp ≠ 0 → k < 4 →
    (∀ (off : BitVec 24) w fs, 2 ≤ p.frames.length → p.frames = w :: fs → p.spillBase + p.depth < p.spillLimit →
      ∃ t : State, exec (.bl (.cx k) off) s = .next t ∧ (t.pair k).frames = fs ++ [p.cwp] ∧ (t.pair k).depth = p.depth + 1 ∧
        (t.pair k).cwp = p.cwp % 7 + 1 ∧ (t.pair k).pc = p.pc + 4 * off.signExtend 32 ∧
        ∀ i, i < 16 → tcmWord t k (64 * (p.spillBase + p.depth) + 4 * i) = p.getW w i) ∧
    (∀ d, p.frames = [] → p.depth = d + 1 → p.spillBase + d < p.spillLimit → (p.getW p.cwp 15).toNat % 4 = 0 →
      ∃ t : State, exec (.retw (.cx k)) s = .next t ∧ (t.pair k).depth = d ∧ (t.pair k).cwp = prevWin p.cwp ∧ t.tcm = s.tcm ∧
        (t.pair k).pc = p.getW p.cwp 15 ∧
        ∀ i, i < 16 → (t.pair k).getW (prevWin p.cwp) i = tcmWord s k (64 * (p.spillBase + d) + 4 * i))

/-! ## Vector, predicate and floating-point instructions (02.8) -/

namespace Sys2Proof.Claims

/-- Integer operations on the elements of two vectors (Table 02-12). -/
def vecVVV : List ((Agent → RegNo → RegNo → RegNo → BitVec 3 → BitVec 2 → Instr) × ((w : Nat) → BitVec w → BitVec w → BitVec w)) := [
  (.vadd, fun _ x y => x + y), (.vsub, fun _ x y => x - y), (.vmul, fun _ x y => x * y), (.vand, fun _ x y => x &&& y),
  (.vor, fun _ x y => x ||| y), (.vxor, fun _ x y => x ^^^ y), (.vandn, fun _ x y => x &&& ~~~y),
  (.vmin, fun _ x y => if x.toInt < y.toInt then x else y), (.vmax, fun _ x y => if x.toInt < y.toInt then y else x),
  (.vminu, fun _ x y => if x.toNat < y.toNat then x else y), (.vmaxu, fun _ x y => if x.toNat < y.toNat then y else x),
  (.vsll, fun _ x y => x <<< (y.toNat % 64)), (.vsrl, fun _ x y => x >>> (y.toNat % 64)),
  (.vsra, fun _ x y => x.sshiftRight (y.toNat % 64)),
  (.vadds, fun w x y => BitVec.ofInt w (max (-(2 ^ (w - 1))) (min (2 ^ (w - 1) - 1) (x.toInt + y.toInt)))),
  (.vaddus, fun w x y => BitVec.ofNat w (min (2 ^ w - 1) (x.toNat + y.toNat)))]

/-- Logical operations on the elements of two predicates. -/
def predPPP : List ((Agent → BitVec 3 → BitVec 3 → BitVec 3 → BitVec 3 → BitVec 2 → Instr) × (Bool → Bool → Bool)) := [
  (.pand, fun x y => x && y), (.por, fun x y => x || y), (.pxor, fun x y => x != y)]

/-- Minima and maxima over the active elements: how a result must compare with each of them. -/
def vecReduce : List ((Agent → RegNo → RegNo → BitVec 3 → BitVec 2 → Instr) × ((w : Nat) → BitVec w → BitVec w → Prop)) := [
  (.vrmin, fun _ r x => r.toInt ≤ x.toInt), (.vrmax, fun _ r x => x.toInt ≤ r.toInt),
  (.vrminu, fun _ r x => r.toNat ≤ x.toNat), (.vrmaxu, fun _ r x => x.toNat ≤ r.toNat)]

/-- Floating-point operations: result and flags from the elements of vs1, vs2 and vd. -/
def vecFp : List ((Agent → RegNo → RegNo → RegNo → BitVec 3 → BitVec 2 → Instr) × (Fmt → Rm → Nat → Nat → Nat → FRes)) := [
  (.vfadd, fun f rm x y _ => f.add rm x y), (.vfsub, fun f rm x y _ => f.sub rm x y), (.vfmul, fun f rm x y _ => f.mul rm x y),
  (.vfdiv, fun f rm x y _ => f.div rm x y), (.vfma, fun f rm x y z => f.fma rm x y z),
  (.vfmin, fun f _ x y _ => f.minMax false x y), (.vfmax, fun f _ x y _ => f.minMax true x y),
  (fun a vd vs1 _ pm esz => .vfsqrt a vd vs1 pm esz, fun f rm x _ _ => f.sqrt rm x),
  (fun a vd vs1 _ pm esz => .vfcvti a vd vs1 pm esz, fun f rm x _ _ => f.toInt rm x),
  (fun a vd vs1 _ pm esz => .vfcvtf a vd vs1 pm esz, fun f rm x _ _ => f.ofInt rm x)]

/-- Element `i` of a vector as a bit vector of its width. -/
def elem (esz : BitVec 2) (v : W256) (i : Nat) : BitVec (8 * eszBytes esz) := BitVec.ofNat _ (lane esz v i)

/-- Core `n` falls through with v register `vd` at some vector whose elements are `f`; nothing else a program sees changes. -/
def SetsV (n : Nat) (vd : RegNo) (esz : BitVec 2) (f : Nat → BitVec (8 * eszBytes esz)) (s : State)
    (o : Host.Outcome State Fault Refusal) : Prop :=
  ∃ r t, (∀ i, i < lanes esz → elem esz r i = f i) ∧ o = .next t ∧ Unseen n (s.setCore n ((s.core n).setV vd.toNat r).advance) t

/-- Core `n` falls through with p register `pd` at some predicate whose element bits are `f`. -/
def SetsP (n : Nat) (pd : BitVec 3) (esz : BitVec 2) (f : Nat → Prop) (s : State) (o : Host.Outcome State Fault Refusal) : Prop :=
  ∃ (v : W32) (t : State), (∀ i, i < lanes esz → (v.getLsbD (i * eszBytes esz) = true ↔ f i)) ∧ o = .next t ∧
    Unseen n (s.setCore n ((s.core n).setP pd.toNat v).advance) t

end Sys2Proof.Claims

/-- Vector integer instructions of a main core: every element of the result, completion and frame. -/
def Obligations.VectorElements : Prop :=
  ∀ (n : Nat) (vd v1 v2 : RegNo) (pm : BitVec 3) (esz : BitVec 2) (s : State), coreReady s n = true →
    let c := s.core n
    let on := fun i => (c.getP pm.toNat).getLsbD (i * eszBytes esz)
    let e1 := elem esz (c.getV v1.toNat)
    let e2 := elem esz (c.getV v2.toNat)
    let ed := elem esz (c.getV vd.toNat)
    (∀ op ∈ vecVVV, SetsV n vd esz (fun i => if on i then op.2 _ (e1 i) (e2 i) else ed i) s (exec (op.1 (.core n) vd v1 v2 pm esz) s)) ∧
    SetsV n vd esz (fun i => if on i then e1 i else e2 i) s (exec (.vsel (.core n) vd v1 v2 pm esz) s) ∧
    SetsV n vd esz (fun i => if on i then (c.getG v1.toNat).setWidth _ else ed i) s (exec (.vbcast (.core n) vd v1 pm esz) s) ∧
    SetsV n vd esz (fun i => if on i then e1 ((e2 i).toNat % lanes esz) else ed i) s (exec (.vperm (.core n) vd v1 v2 pm esz) s) ∧
    (∀ el : RegNo, el.toNat < lanes esz →
      SetsV n vd esz (fun i => if on i ∧ i = el.toNat then (c.getG v1.toNat).setWidth _ else ed i) s (exec (.vins (.core n) vd v1 el pm esz) s) ∧
      (on el.toNat = true → Writes n vd ((e1 el.toNat).setWidth 64) s (exec (.vext (.core n) vd v1 el pm esz) s)) ∧
      (on el.toNat = false → ∃ t : State, exec (.vext (.core n) vd v1 el pm esz) s = .next t ∧ Unseen n (s.setCore n c.advance) t)) ∧
    (∀ el : RegNo, lanes esz ≤ el.toNat → (∃ r t, exec (.vins (.core n) vd v1 el pm esz) s = .next t ∧
        Unseen n (s.setCore n (c.setV vd.toNat r).advance) t) ∧ (∃ v, Writes n vd v s (exec (.vext (.core n) vd v1 el pm esz) s)))

/-- Reductions, comparisons and predicate instructions of a main core. -/
def Obligations.VectorReductionsAndPredicates : Prop :=
  ∀ (n : Nat) (vd v1 v2 : RegNo) (cd pd p1 p2 pm : BitVec 3) (esz : BitVec 2) (s : State), coreReady s n = true →
    let c := s.core n
    let bit := fun (q : BitVec 3) i => (c.getP q.toNat).getLsbD (i * eszBytes esz)
    let e1 := elem esz (c.getV v1.toNat)
    SetsV n vd esz (fun i => if i = 0 then
        (List.range (lanes esz)).foldl (fun a j => if bit pm j then a + e1 j else a) 0 else 0) s (exec (.vrsum (.core n) vd v1 pm esz) s) ∧
    (∀ op ∈ vecReduce, (∃ j, j < lanes esz ∧ bit pm j = true) →
      ∃ j, j < lanes esz ∧ bit pm j = true ∧ (∀ i, i < lanes esz → bit pm i = true → op.2 _ (e1 j) (e1 i)) ∧
        SetsV n vd esz (fun i => if i = 0 then e1 j else 0) s (exec (op.1 (.core n) vd v1 pm esz) s)) ∧
    (∀ op ∈ vecReduce, (∀ j, j < lanes esz → bit pm j = false) →
      ∃ v, SetsV n vd esz (fun i => if i = 0 then v else 0) s (exec (op.1 (.core n) vd v1 pm esz) s)) ∧
    SetsP n pd esz (fun i => bit pm i = true ∧ cond cd (e1 i) (elem esz (c.getV v2.toNat) i)) s (exec (.vcmp (.core n) cd pd v1 v2 pm esz) s) ∧
    (∀ op ∈ predPPP, SetsP n pd esz (fun i => (if bit pm i then op.2 (bit p1 i) (bit p2 i) else bit pd i) = true) s
      (exec (op.1 (.core n) pd p1 p2 pm esz) s)) ∧
    SetsP n pd esz (fun i => (if bit pm i then !bit p1 i else bit pd i) = true) s (exec (.pnot (.core n) pd p1 pm esz) s) ∧
    Writes n vd (BitVec.ofNat 64 ((List.range (lanes esz)).countP fun i => bit pm i && bit p1 i)) s (exec (.pcnt (.core n) vd p1 pm esz) s)

/-- Floating-point instructions of a main core: results, sticky flags, completion and frame. -/
def Obligations.FloatingPoint : Prop :=
  ∀ (n : Nat) (vd v1 v2 : RegNo) (pm : BitVec 3) (esz : BitVec 2) (s : State), coreReady s n = true → esz ≠ 0 →
    let c := s.core n
    let on := fun i => (c.getP pm.toNat).getLsbD (i * eszBytes esz)
    let ctl := c.sys c.world 0 0
    ∀ op ∈ vecFp,
      let r := fun i => op.2 (fmtOf esz.toNat) (rmOf (ctl.toNat % 8)) (lane esz (c.getV v1.toNat) i) (lane esz (c.getV v2.toNat) i)
        (lane esz (c.getV vd.toNat) i)
      ∃ v w t, (∀ i, i < lanes esz → elem esz v i = if on i then BitVec.ofNat _ (r i).bits else elem esz (c.getV vd.toNat) i) ∧
        (∀ j, j < 64 → (w.getLsbD j = true ↔ ctl.getLsbD j = true ∨ ∃ i, i < lanes esz ∧ on i = true ∧ (r i).flags.getLsbD j = true)) ∧
        exec (op.1 (.core n) vd v1 v2 pm esz) s = .next t ∧
        Unseen n (s.setCore n ((c.setV vd.toNat v).setSys c.world 0 0 w).advance) t

/-- R78 for the four operations and the square root, at each of the three formats. -/
def Obligations.DefaultNaN : Prop :=
  ∀ (rm : Rm) (x y : Nat), ∀ e ∈ [(1, 0x7E00, 0x7C00, 16), (2, 0x7FC00000, 0x7F800000, 32), (3, 0x7FF8000000000000, 0x7FF0000000000000, 64)],
    x < 2 ^ e.2.2.2 → y < 2 ^ e.2.2.2 →
    let f := fmtOf e.1
    let nan := fun (z : Nat) => e.2.2.1 < z % 2 ^ (e.2.2.2 - 1)
    (nan x ∨ nan y → (f.add rm x y).bits = e.2.1 ∧ (f.sub rm x y).bits = e.2.1 ∧ (f.mul rm x y).bits = e.2.1 ∧ (f.div rm x y).bits = e.2.1) ∧
    (nan x → (f.sqrt rm x).bits = e.2.1)


/-! ## Traps, levels and system registers (chapter 03, 10.3, 10.4) -/

namespace Sys2Proof.Claims

/-- Core `n` executes, no broadcast TLBI of its own and no interrupt holds back a trap, no retired store waits, and in the
sealed world its level is U or K (R94). -/
def TrapReady (s : State) (n : Nat) : Prop :=
  coreReady s n = true ∧ syncBlocked s n = false ∧ interruptDue s n = none ∧ (s.core n).sq = [] ∧
    ((s.core n).world = .openW ∨ levelNum (s.core n).level < 2)

/-- The core after the effect of SYNC with no store waiting (R83). -/
def synced (c : Core) : Core := { c with granted := c.granted.filter fun g => !g.2 }.sync

/-- The core that has entered level `x` at a vector offset (R99): X_EPC, X_CAUSE and X_TVAL written, X_STATUS.pie the old ie, ie 0,
pl the old level, the pc at the vector, no reservation. -/
def entered (x : Level) (off : Nat) (word tval : W64) (c : Core) : Core :=
  let d := synced c
  let l := levelNum x
  let st := c.sys c.world l 0
  let st' := (st &&& ~~~0x33#64) ||| BitVec.ofNat 64 (16 * levelNum c.level + 2 * (st.toNat % 2))
  { (((d.setSys c.world l 2 (c.pc &&& ~~~3#64)).setSys c.world l 3 word).setSys c.world l 4 tval).setSys c.world l 0 st' with
    level := x, pc := d.inForce c.world l 1 + BitVec.ofNat 64 off, resv := none }

/-- The translation of core `d`'s pc is at hand in core `n` and permits the fetch (R101 does not apply). -/
def Fetches (s : State) (n : Nat) (d : Core) : Prop :=
  ∃ e, tlbHit (s.setCore n d) n (coreCtx (s.setCore n d) n d.level) d.pc.toNat = some e ∧
    tlbFault e (coreCtx (s.setCore n d) n d.level) d.pc.toNat .fetch = none ∧ e.mt ≠ .device

/-- The level a trap goes to (R97): its receiving level, or the current one where that is higher. -/
def trapLevel (base cur : Level) : Level := if levelNum base < levelNum cur then cur else base

/-- A trap whose receiving level is `base`, with X_CAUSE `word` and X_TVAL `tval`, is taken by core `n`: it enters the level at
offset 0x000 from a lower level and 0x100 from the same; a program sees nothing else change. -/
def Traps (n : Nat) (base : Level) (word tval : W64) (s : State) (o : Host.Outcome State Fault Refusal) : Prop :=
  let c := s.core n
  let x := trapLevel base c.level
  let d := entered x (if levelNum c.level < levelNum x then 0 else 0x100) word tval c
  Fetches s n d → ∃ t : State, o = .next t ∧ Unseen n (s.setCore n d) t

/-- Pair `k` traps (R427, R428) into the next window: CX_CAUSE and CX_TVAL, pc in w15, status in w14, level and ie kept, world M, and
the pc from vector entry 64; other registers of the pair and every other unit are as before. -/
def PairTraps (k : Nat) (code : Nat) (tval : W32) (s : State) (o : Host.Outcome State Fault Refusal) : Prop :=
  let p := s.pair k
  let win := p.cwp % 7 + 1
  ∃ t : State, o = .next t ∧ t = { s with pairs := t.pairs } ∧ (∀ j, j ≠ k → { t.pair j with pend := 0 } = { s.pair j with pend := 0 }) ∧
    let q := t.pair k
    q.cwp = win ∧ q.frames = p.frames ++ [p.cwp] ∧ q.k = p.k ∧ q.cx 1 = BitVec.ofNat 32 code ∧ q.cx 2 = tval ∧
    q.getW win 15 = p.pc ∧ q.getW win 14 = p.cx 0 ∧ q.cx 0 = (p.cx 0 &&& 0x71#32) ∧
    q.pc = tcmWord s k ((p.cx 4).toNat / 512 % 1024 * 512 + 256) &&& 0x7FFFF#32

/-- The pair can take a trap without a spill and outside the spill-fault window. -/
def PairTrapReady (s : State) (k : Nat) : Prop :=
  PairTakes s k [] [] ∧ (s.pair k).cwp ≠ 0 ∧ (s.pair k).frames.length < 2

end Sys2Proof.Claims

/-- Trap entry by instructions whose effect it is. -/
def Obligations.CoreTraps : Prop :=
  ∀ (n : Nat) (s : State), TrapReady s n → let c := s.core n
    (∀ w, Traps n .K 0x301 0 s (exec (.illegalEncoding (.core n) w) s)) ∧ Traps n .K 0x301 0 s (exec (.retw (.core n)) s) ∧
    (∀ op ∈ vecFp, ∀ vd v1 v2 pm, Traps n .K 0x301 0 s (exec (op.1 (.core n) vd v1 v2 pm 0) s)) ∧
    (∀ cd r1 (i : Byte) off, 6 ≤ cd.toNat → 64 ≤ i.toNat → Traps n .K 0x301 0 s (exec (.bcci (.core n) cd r1 i off) s)) ∧
    (∀ i, Traps n .K 0x306 0 s (exec (.scall (.core n) i) s) ∧ Traps n .K 0x309 0 s (exec (.brk (.core n) i) s)) ∧
    (∀ i, c.world = .openW → 1 ≤ levelNum c.level → Traps n .H 0x307 0 s (exec (.hcall (.core n) i) s)) ∧
    (∀ i, c.world = .openW → 2 ≤ levelNum c.level → Traps n .F 0x308 0 s (exec (.fcall (.core n) i) s)) ∧
    (∀ rd r1 (i : BitVec 14), (c.getG r1.toNat + i.signExtend 64).toNat % 4 ≠ 0 →
      Traps n .K 0x203 (c.getG r1.toNat + i.signExtend 64) s (exec (.jr (.core n) rd r1 i) s))

/-- Privileged instructions where the level does not permit them. -/
def Obligations.PrivilegeTraps : Prop :=
  ∀ (n : Nat) (s : State), TrapReady s n → let c := s.core n; let l := levelNum c.level
    (l = 0 → (∀ i, Traps n .K 0x302 0 s (exec (.hcall (.core n) i) s)) ∧ Traps n .K 0x302 0 s (exec (.wfi (.core n)) s) ∧
      Traps n .K 0x302 0 s (exec (.tret (.core n)) s)) ∧
    (l < 2 → c.world = .openW → ∀ i, Traps n .K 0x302 0 s (exec (.fcall (.core n) i) s)) ∧
    (c.world = .sealedW → ∀ i, Traps n .K 0x301 0 s (exec (.fcall (.core n) i) s)) ∧
    (l < (c.sys c.world l 0).toNat / 16 % 4 → Traps n .K 0x302 0 s (exec (.tret (.core n)) s)) ∧
    ((c.world = .openW → c.level ≠ .H) → (c.world = .sealedW → c.level ≠ .K) → ∀ r, Traps n .K 0x302 0 s (exec (.gate (.core n) r) s)) ∧
    (∀ ra rb (sc : BitVec 3) b, l < (if sc.toNat < 4 then 1 else 2) → Traps n .K 0x302 0 s (exec (.tlbi (.core n) ra rb sc b) s)) ∧
    (∀ ra (r : BitVec 10), (sysExists (r.toNat / 256) (r.toNat % 256) = false →
        Traps n .K 0x301 0 s (exec (.mfs (.core n) ra r) s) ∧ Traps n .K 0x301 0 s (exec (.mts (.core n) ra r) s)) ∧
      (sysExists (r.toNat / 256) (r.toNat % 256) = true → l < r.toNat / 256 →
        Traps n .K 0x302 0 s (exec (.mfs (.core n) ra r) s) ∧ Traps n .K 0x302 0 s (exec (.mts (.core n) ra r) s)))

/-- Trap entry of a pair, the halt in the spill-fault window, and TRET. -/
def Obligations.PairTrapsAndReturns : Prop :=
  ∀ (k : Nat) (s : State),
    (PairTrapReady s k → (∀ w, PairTraps k 1 0 s (exec (.illegalEncoding (.cx k) w) s)) ∧
      (∀ i, PairTraps k 6 0 s (exec (.scall (.cx k) i) s) ∧ PairTraps k 9 0 s (exec (.brk (.cx k) i) s) ∧
        PairTraps k 1 0 s (exec (.hcall (.cx k) i) s)) ∧
      (∀ r, PairTraps k 1 0 s (exec (.gate (.cx k) r) s)) ∧ (∀ r q, PairTraps k 1 0 s (exec (.rand (.cx k) r q) s))) ∧
    (PairTakes s k [] [] → (s.pair k).cwp = 0 → k < 4 → ∀ i, ∃ t : State, exec (.scall (.cx k) i) s = .next t ∧ t.regF .CXS_CTL 6 6 k = 1 ∧
      (t.pair (if k = 2 then 0 else 2)).pend.getLsbD 3 = true ∧ t.tcm = s.tcm ∧ (t.pair k).pc = (s.pair k).pc) ∧
    (∀ fs w, PairTakes s k [] [] → let p := s.pair k
      p.cwp ≠ 0 → p.worldT = false → p.div = none → p.frames = fs ++ [w] → (p.getW p.cwp 13).getLsbD 31 = false →
      PairBecomes k { ({ p with cwp := prevWin p.cwp, frames := fs }.setCx 0 (p.getW p.cwp 14 &&& 0xF1#32)).sync with
        pc := p.getW p.cwp 15 } s (exec (.tret (.cx k)) s))

/-- System registers of main cores read and written. -/
def Obligations.CoreSystemRegisters : Prop :=
  ∀ (n : Nat) (ra : RegNo) (r : BitVec 10) (s : State), coreReady s n = true → let c := s.core n
    let l := r.toNat / 256
    let i := r.toNat % 256
    let v := c.getG ra.toNat
    let old := c.sys c.world l i
    (sysFault c l i false = none →
      (i < 0x10 → (l = 1 ∧ i = 0x0A → c.world = .openW) → Writes n ra old s (exec (.mfs (.core n) ra r) s)) ∧
      (l = 1 → i = 0x10 → Writes n ra (BitVec.ofNat 64 n) s (exec (.mfs (.core n) ra r) s)) ∧
      (l = 1 → i = 0x0A → c.world = .sealedW → Writes n ra 1 s (exec (.mfs (.core n) ra r) s)) ∧
      (i = 0x2A → Writes n ra 0 s (exec (.mfs (.core n) ra r) s)) ∧
      (0x20 ≤ i → i < 0x29 → Writes n ra old s (exec (.mfs (.core n) ra r) s)) ∧
      (0x40 ≤ i → ∃ w, Writes n ra w s (exec (.mfs (.core n) ra r) s))) ∧
    (sysFault c l i true = none →
      (i < 0x10 ∨ 0x24 ≤ i ∧ i < 0x29 → (l = 1 ∧ i = 0x0A → c.world = .openW) → ∃ t : State, exec (.mts (.core n) ra r) s = .next t ∧
        Unseen n (s.setCore n (c.setSys c.world l i ((old &&& ~~~sysMask l i) ||| (v &&& sysMask l i))).advance) t) ∧
      (l = 1 → i = 0x0A → c.world = .sealedW → ∃ t : State, exec (.mts (.core n) ra r) s = .next t ∧ Unseen n (s.setCore n c.advance) t) ∧
      (0x20 ≤ i → i < 0x24 → nonInvasive s c = false → bit (c.erg 0x60) 63 = false → ∃ t : State, exec (.mts (.core n) ra r) s = .next t ∧
        t.core n = (c.setSys c.world l i (old &&& ~~~v)).advance ∧ t = { s with cores := t.cores, pairs := t.pairs }))

/-- Context synchronisation, return, wait and fence of main cores. -/
def Obligations.CoreSyncAndReturn : Prop :=
  ∀ (n : Nat) (s : State), coreReady s n = true → let c := s.core n; let l := levelNum c.level
    (∀ m : BitVec 4, ∃ t : State, exec (.fence (.core n) m) s = .next t ∧
      Unseen n ((if m.getLsbD 2 && m.getLsbD 1 then drainStores n s else s).modCore n Core.advance) t) ∧
    (syncBlocked s n = false → c.sq = [] →
      (∃ t : State, exec (.sync (.core n)) s = .next t ∧ Unseen n (s.setCore n (synced c).advance) t) ∧
      (let st := c.sys c.world l 0
       l ≠ 0 → st.toNat / 16 % 4 ≤ l → ∃ t : State, exec (.tret (.core n)) s = .next t ∧
        Unseen n (s.setCore n { (synced c).setSys c.world l 0 (if st.getLsbD 1 then st ||| 1#64 else st &&& ~~~1#64) with
          level := levelOf (st.toNat / 16 % 4), pc := c.sys c.world l 2, resv := none }) t) ∧
      (l ≠ 0 → ∃ t : State, exec (.wfi (.core n)) s = .next t ∧ (t.core n).pc = c.pc + 4 ∧
        (bit (s.reg .TC_CSTATE (n / 2)) (n % 2) = false → Unseen n (s.setCore n { (synced c).advance with run := (t.core n).run }) t) ∧
        (t.core n).run = (if (t.core n).wakes then .running else if bit (s.reg .TC_CSTATE (n / 2)) (n % 2) then .c3Entry else .feather)))

/-- System registers, SYNC, WFI and FENCE of pairs. -/
def Obligations.PairSystem : Prop :=
  ∀ (k : Nat) (ra : RegNo) (r : BitVec 10) (s : State), let p := s.pair k; let i := r.toNat % 256
    (PairTakes s k [] [ra] → r.toNat < 256 → cxExists i = true → (p.worldT = true → cxOpenT i false = true) →
      PairBecomes k (p.setR ra (cxRead p i)).advance s (exec (.mfs (.cx k) ra r) s)) ∧
    (PairTakes s k [ra] [] → r.toNat < 256 → cxExists i = true → (p.worldT = true → cxOpenT i true = true) →
      ¬(0x20 ≤ i ∧ i < 0x30 ∧ i % 4 = 3) →
      PairBecomes k (p.setCx i ((p.cx i &&& ~~~cxMask i) ||| (p.getR ra &&& cxMask i))).advance s (exec (.mts (.cx k) ra r) s)) ∧
    (PairTrapReady s k → fieldBad ra = false → p.stalls [ra] [ra] = false →
      ((256 ≤ r.toNat ∨ cxExists i = false) →
        PairTraps k 1 0 s (exec (.mfs (.cx k) ra r) s) ∧ PairTraps k 1 0 s (exec (.mts (.cx k) ra r) s)) ∧
      (r.toNat < 256 → cxExists i = true → p.worldT = true → cxOpenT i true = false → PairTraps k 2 0 s (exec (.mts (.cx k) ra r) s))) ∧
    (PairTakes s k [] [] → PairBecomes k p.sync.advance s (exec (.sync (.cx k)) s) ∧
      (∃ t : State, exec (.wfi (.cx k)) s = .next t ∧ t = { s with pairs := t.pairs } ∧ PairsAlike (s.setPair k { p.advance with waiting := true }) t) ∧
      (∀ m : BitVec 4, s.fab.outs.any (fun o => o.who == .pair k && o.op == .WrPtl) = false →
        PairBecomes k p.advance s (exec (.fence (.cx k) m) s)))

/-- Partition entry, refusal and exit. -/
def Obligations.Partitions : Prop :=
  ∀ (n : Nat) (rb : RegNo) (i : BitVec 10) (s : State), coreReady s n = true → syncBlocked s n = false → let c := s.core n
    let x := c.getG rb.toNat
    (c.world = .openW → c.level = .H → (gateCheck s x = 3 ∨ gateCheck s x = 4 ∨ gateCheck s x = 5) →
      ∃ t : State, exec (.gate (.core n) rb) s = .next t ∧ Unseen n (s.setCore n
        ((c.setSys .openW 2 0x0C (BitVec.ofNat 64 (gateCheck s x * 2 ^ 24 + ((descWords s x.toNat).1.getD 0 0).toNat % 2 ^ 16 * 256 + 0x22))).setSys
          .openW 2 0x0D 0).advance) t) ∧
    (c.world = .openW → c.level = .H → gateCheck s x = 1 → ∃ t : State, exec (.gate (.core n) rb) s = .next t ∧ Unseen n (s.setCore n
        ((c.setSys .openW 2 0x0C 0x1000022).setSys .openW 2 0x0D 0).advance) t) ∧
    (c.world = .openW → c.level = .H → gateCheck s x = 0 → ((descWords s x.toNat).1.getD 5 0).getLsbD 0 = false →
      ∃ t : State, exec (.gate (.core n) rb) s = .next t ∧ (t.core n).world = .sealedW ∧ (t.core n).level = .K ∧
        (t.core n).pc = (descWords s x.toNat).1.getD 4 0 ∧ (∀ r, (t.core n).getG r = 0 ∧ (t.core n).getV r = 0) ∧ (t.core n).resv = none) ∧
    (c.world = .sealedW → c.level = .K → ∀ r, c.running = some r → c.haltReq = false → interruptDue s n = none →
      ∀ e ∈ [(Instr.gate (.core n) rb, 0x20, 0), (Instr.hcall (.core n) i, 7, i.toNat)],
        ∃ t : State, exec e.1 s = .next t ∧ (t.core n).world = .openW ∧ (t.core n).level = .H ∧
          (t.core n).pc = (t.core n).sys .openW 2 1 + 0x300 ∧ (t.core n).sys .openW 2 0x0C = BitVec.ofNat 64 (r.part * 256 + e.2.1) ∧
          (t.core n).sys .openW 2 0x0D = BitVec.ofNat 64 e.2.2 ∧ (t.core n).sys .openW 2 2 = c.gateRet ∧
          (∀ r, (t.core n).getG r = 0 ∧ (t.core n).getV r = 0) ∧ (t.core n).resv = none)

/-- TLBI and the request of RAND. -/
def Obligations.TlbiAndRand : Prop :=
  ∀ (n : Nat) (ra rb : RegNo) (sc : BitVec 3) (s : State), coreReady s n = true → let c := s.core n
    ((if sc.toNat < 4 then 1 else 2) ≤ levelNum c.level →
      (∃ t : State, exec (.tlbi (.core n) ra rb sc false) s = .next t ∧ Unseen n (s.setCore n
        { c.advance with tlb := c.tlb.filter fun e => !tlbiHits sc.toNat c.ownRegime (c.getG ra.toNat) (c.getG rb.toNat) e }) t) ∧
      (∃ (t : State) (b : Bcast), exec (.tlbi (.core n) ra rb sc true) s = .next t ∧ t.fab.bcasts = s.fab.bcasts ++ [b] ∧ b.kind = .tlbi ∧ b.who = .core n ∧
        (t.core n).tlb = c.tlb ∧ (t.core n).pc = c.pc + 4 ∧ syncBlocked t n = true)) ∧
    ((ra ≠ rb ∨ ra = 0) → s.regF .NI_RT 1 0 (coreStop n) 0x72 ≠ 3 →
      ∃ (t : State) (p : Packet), exec (.rand (.core n) ra rb) s = .next t ∧ t.fab.net = s.fab.net ++ [p] ∧ p.op = .RegRd ∧ p.dst = 0x72 ∧ p.addr = 0x72005008 ∧
        (t.core n).wait.isSome = true ∧ (t.core n).g = c.g ∧ (t.core n).pc = c.pc)


/-! ## Loads, stores and atomics (02.6, 04.4, 04.5) -/

namespace Sys2Proof.Claims

/-- The cached lines agree but for their ages and streaming marks (05.2). -/
def LinesAlike (s t : State) : Prop :=
  ∀ k, (NMap.find? t.lines k).map (fun l => { l with age := 0, strm := false }) =
    (NMap.find? s.lines k).map fun l => { l with age := 0, strm := false }

/-- Core `n` completes a load and becomes `d`: its prefetchers and the ages of lines may change, and nothing else a program sees. -/
def Loaded (n : Nat) (d : Core) (s : State) (o : Host.Outcome State Fault Refusal) : Prop :=
  ∃ pf gr t, o = .next t ∧ LinesAlike s t ∧ Unseen n { s.setCore n { d with pfStride := pf, granted := gr } with lines := t.lines } t

/-- The addresses of an instruction resolve to `bs` in the L1 DTLB, in write-back memory (R116, 03.7). -/
def Resolves (s : State) (n : Nat) (op : MemOp) (bs : List (Nat × Nat × TlbEnt)) : Prop :=
  resolve s n op = .ok bs ∧ ∀ b ∈ bs, b.2.2.mt = .writeBack ∧ b.2.2.l1d = true

/-- No retired store waits and every byte of the instruction lies in an L1D line that is not poisoned. -/
def InL1 (s : State) (n : Nat) (op : MemOp) (bs : List (Nat × Nat × TlbEnt)) : Prop :=
  Resolves s n op bs ∧ (s.core n).sq = [] ∧
    ∀ b ∈ bs, ∃ l, hitLine s (.l1d n) (b.2.1 / 64) b.2.2.key = some l ∧ l.poison = false

/-- The number that some of the accessed bytes hold in the L1D, ascending. -/
def l1Nat (s : State) (n : Nat) (bs : List (Nat × Nat × TlbEnt)) : Nat := leNat (bs.map fun b => (l1Byte s n b.2.1 b.2.2.key).1)

/-- Scalar loads: size and sign extension (Table 02-9). -/
def coreLoads : List ((Agent → RegNo → RegNo → BitVec 14 → Hint → Instr) × Nat × Bool) := [
  (.lb, 1, true), (.lbu, 1, false), (.lh, 2, true), (.lhu, 2, false), (.lw, 4, true), (.lwu, 4, false), (.ld, 8, false)]

/-- Scalar stores and their sizes. -/
def coreStores : List ((Agent → RegNo → RegNo → BitVec 14 → Hint → Instr) × Nat) := [(.sb, 1), (.sh, 2), (.sw, 4), (.sd, 8)]

/-- The byte lanes of the active elements. -/
def laneOn (esz : BitVec 2) (p : W32) (i : Nat) : Bool := p.getLsbD (i / eszBytes esz * eszBytes esz)

/-- A store retires: its bytes join the store queue, one entry for each key ID, and the core falls through; memory and caches are
as before. -/
def Queues (n : Nat) (bytes : List (Nat × Byte)) (bs : List (Nat × Nat × TlbEnt)) (s : State)
    (o : Host.Outcome State Fault Refusal) : Prop :=
  ∃ gr t es, o = .next t ∧ Unseen n (s.setCore n { (s.core n).advance with sq := (s.core n).sq ++ es, granted := gr }) t ∧
    es.map (fun e => (e.key, e.bytes, e.dev)) =
      ((bs.map fun b => b.2.2.key).eraseDups).map fun k => (k, storeBytes bytes (bs.filter fun b => b.2.2.key == k), false)

/-- The new value of an ATOM from the old value, the operand and the old rd (R67). -/
def coreAtoms : List ((Agent → RegNo → RegNo → RegNo → BitVec 2 → BitVec 2 → Instr) ×
    ((w : Nat) → BitVec w → BitVec w → BitVec w → BitVec w)) := [
  (.cas, fun _ m x c => if m = c then x else m), (.swp, fun _ _ x _ => x), (.ldadd, fun _ m x _ => m + x),
  (.ldand, fun _ m x _ => m &&& x), (.ldor, fun _ m x _ => m ||| x), (.ldxor, fun _ m x _ => m ^^^ x),
  (.ldmin, fun _ m x _ => if m.toInt < x.toInt then m else x), (.ldmax, fun _ m x _ => if m.toInt < x.toInt then x else m),
  (.ldminu, fun _ m x _ => if m.toNat < x.toNat then m else x), (.ldmaxu, fun _ m x _ => if m.toNat < x.toNat then x else m)]

/-- Byte `i` of a number. -/
def byteOf (v i : Nat) : Byte := BitVec.ofNat 8 (v / 256 ^ i)

/-- `size` bytes from `pa` on in core `n`'s L1D line become those of `v`; its other bytes, every other cache and DRAM stay. -/
def L1Becomes (n pa size key v : Nat) (s t : State) : Prop :=
  (∀ a, a / 64 = pa / 64 → (l1Byte t n a key).1 = if pa ≤ a ∧ a < pa + size then byteOf v (a - pa) else (l1Byte s n a key).1) ∧
  (∀ k, k / 65536 ≠ 144 + n → NMap.find? t.lines k = NMap.find? s.lines k) ∧ t.dram = s.dram ∧ t.lmeta = s.lmeta

end Sys2Proof.Claims

/-- Scalar, pair, vector, acquire and reserving loads that hit: value, completion and frame. -/
def Obligations.CoreLoads : Prop :=
  ∀ (n : Nat) (rt rb : RegNo) (d : BitVec 14) (h : Hint) (s : State), coreReady s n = true → h.path ≠ .wrongPath →
    let c := s.core n; let va := c.getG rb.toNat + d.signExtend 64
    (∀ e ∈ coreLoads, ∀ bs, let op : MemOp := ⟨.load rt.toNat e.2.2, va, e.2.1, h.s, true, false⟩
      (InL1 s n op bs → Loaded n (c.setG rt.toNat (extend e.2.1 e.2.2 (BitVec.ofNat 64 (l1Nat s n bs)))).advance s
        (exec (e.1 (.core n) rt rb d h) s)) ∧
      (∀ q, Resolves s n op bs → h.path = .retired → youngest c.sq (bs.map fun b => b.2.1) = some q →
        (∀ b ∈ bs, (q.byteAt b.2.1).isSome) →
        Loaded n (c.setG rt.toNat (extend e.2.1 e.2.2 (BitVec.ofNat 64 (leNat (bs.map fun b => (q.byteAt b.2.1).getD 0))))).advance s
          (exec (e.1 (.core n) rt rb d h) s))) ∧
    (∀ bs, rt.toNat % 2 = 0 → InL1 s n ⟨.loadPair rt.toNat, va, 16, h.s, true, false⟩ bs →
      Loaded n ((c.setG rt.toNat (BitVec.ofNat 64 (l1Nat s n (bs.take 8)))).setG (rt.toNat + 1)
        (BitVec.ofNat 64 (l1Nat s n (bs.drop 8)))).advance s (exec (.ldp (.core n) rt rb d h) s)) ∧
    (∀ bs, InL1 s n ⟨.loadVec rt.toNat 0xFFFFFFFF#32, va, 32, h.s, false, false⟩ bs →
      Loaded n (c.setV rt.toNat (BitVec.ofNat 256 (l1Nat s n bs))).advance s (exec (.vld (.core n) rt rb d h) s)) ∧
    (∀ pm esz bs, InL1 s n ⟨.loadVec rt.toNat (laneMask esz (c.getP pm.toNat)), c.getG rb.toNat, 32, h.s, false, false⟩ bs →
      ∃ v : W256, (∀ b ∈ bs, v.extractLsb' (8 * b.1) 8 = (l1Byte s n b.2.1 b.2.2.key).1) ∧
        (∀ i, i < 32 → laneOn esz (c.getP pm.toNat) i = false → v.extractLsb' (8 * i) 8 = (c.getV rt.toNat).extractLsb' (8 * i) 8) ∧
        Loaded n (c.setV rt.toNat v).advance s (exec (.vldm (.core n) rt rb pm esz h) s)) ∧
    (∀ (sz : BitVec 2) bs, (c.getG rb.toNat).toNat % 2 ^ sz.toNat = 0 →
      InL1 s n ⟨.load rt.toNat true, c.getG rb.toNat, 2 ^ sz.toNat, false, false, true⟩ bs →
      Loaded n (c.setG rt.toNat (extend (2 ^ sz.toNat) true (BitVec.ofNat 64 (l1Nat s n bs)))).advance s (exec (.lda (.core n) rt rb sz) s)) ∧
    (∀ (ord sz : BitVec 2) b bs, 2 ≤ sz.toNat → (c.getG rb.toNat).toNat % 2 ^ sz.toNat = 0 →
      InL1 s n ⟨.lr rt.toNat, c.getG rb.toNat, 2 ^ sz.toNat, false, false, ord.getLsbD 0⟩ (b :: bs) →
      Loaded n { (c.setG rt.toNat (extend (2 ^ sz.toNat) true (BitVec.ofNat 64 (l1Nat s n (b :: bs))))).advance with
        resv := some (b.2.1 / 64, keyOf (b :: bs)) } s (exec (.lr (.core n) rt rb ord sz) s))

/-- Scalar, pair, vector and release stores, DC.ZERO, and the write of a retired store. -/
def Obligations.CoreStores : Prop :=
  ∀ (n : Nat) (rt rb : RegNo) (d : BitVec 14) (h : Hint) (s : State),
    let c := s.core n; let va := c.getG rb.toNat + d.signExtend 64
    (coreReady s n = true → h.path ≠ .wrongPath → c.sq.length < 128 →
      (∀ e ∈ coreStores, ∀ bs, let bytes := byteList e.2 (c.getG rt.toNat).toNat; let op : MemOp := ⟨.store bytes, va, e.2, h.s, true, false⟩
        Resolves s n op bs → Queues n bytes bs s (exec (e.1 (.core n) rt rb d h) s)) ∧
      (∀ bs, let bytes := byteList 16 ((c.getG rt.toNat).toNat + (c.getG (rt.toNat + 1)).toNat * 2 ^ 64)
        let op : MemOp := ⟨.store bytes, va, 16, h.s, true, false⟩
        rt.toNat % 2 = 0 → Resolves s n op bs → Queues n bytes bs s (exec (.sdp (.core n) rt rb d h) s)) ∧
      (∀ bs, let bytes := byteList 32 (c.getV rt.toNat).toNat; let op : MemOp := ⟨.store bytes, va, 32, h.s, false, false⟩
        Resolves s n op bs → Queues n bytes bs s (exec (.vst (.core n) rt rb d h) s)) ∧
      (∀ pm esz bs, let bytes := (byteList 32 (c.getV rt.toNat).toNat).filter fun e => laneOn esz (c.getP pm.toNat) e.1
        let op : MemOp := ⟨.store bytes, c.getG rb.toNat, 32, h.s, false, false⟩
        Resolves s n op bs → Queues n bytes bs s (exec (.vstm (.core n) rt rb pm esz h) s)) ∧
      (∀ (sz : BitVec 2) bs, let bytes := byteList (2 ^ sz.toNat) (c.getG rt.toNat).toNat
        let op : MemOp := ⟨.store bytes, c.getG rb.toNat, 2 ^ sz.toNat, false, false, false⟩
        (c.getG rb.toNat).toNat % 2 ^ sz.toNat = 0 → Resolves s n op bs → Queues n bytes bs s (exec (.stl (.core n) rb rt sz) s)) ∧
      (∀ bs, let bytes := byteList 64 0; let op : MemOp := ⟨.store bytes, c.getG rb.toNat &&& ~~~63#64, 64, false, false, false⟩
        Resolves s n op bs → Queues n bytes bs s (exec (.dcZero (.core n) rb) s))) ∧
    (∀ e q L, n < 144 → c.sq = e :: q → e.dev = false → e.bytes ≠ [] → (∀ b ∈ e.bytes, b.1 / 64 = L) → (e.bytes.map Prod.fst).Nodup →
      ownsL1 s n L e.key = true → recovering s n L = false →
      ∃ t : State, exec (.storeWriteL1d n) s = .next t ∧ (t.core n).sq = q ∧ t.dram = s.dram ∧ t.lmeta = s.lmeta ∧
        (∀ a, a / 64 = L → (l1Byte t n a e.key).1 = (e.byteAt a).getD (l1Byte s n a e.key).1) ∧
        (∀ k, k / 65536 ≠ 144 + n → NMap.find? t.lines k = NMap.find? s.lines k))

/-- ATOM and SC in owned lines. -/
def Obligations.CoreAtomics : Prop :=
  ∀ (n : Nat) (rd rs1 rs2 : RegNo) (ord sz : BitVec 2) (s : State), coreReady s n = true → 2 ≤ sz.toNat →
    let c := s.core n; let va := c.getG rs1.toNat; let size := 2 ^ sz.toNat
    va.toNat % size = 0 → c.sq = [] →
    (∀ a ∈ List.range 10, ∀ e, coreAtoms[a]? = some e → ∀ b bs l,
      let op : MemOp := ⟨.atom (BitVec.ofNat 4 a) rd.toNat (c.getG rs2.toNat), va, size, false, false, ord.getLsbD 0⟩
      let key := keyOf (b :: bs); let m := lineNat l.data (b.2.1 % 64) size
      Resolves s n op (b :: bs) → ownsL1 s n (b.2.1 / 64) key = true → hitLine s (.l1d n) (b.2.1 / 64) key = some l → l.poison = false →
      b.2.1 % 64 + size ≤ 64 →
      ∃ t : State, exec (e.1 (.core n) rd rs1 rs2 ord sz) s = .next t ∧ (t.core n).pc = c.pc + 4 ∧
        (∀ r, (t.core n).getG r = (c.setG rd.toNat (extend size true (BitVec.ofNat 64 m))).getG r) ∧ (t.core n).v = c.v ∧ (t.core n).p = c.p ∧
        L1Becomes n b.2.1 size key (e.2 (8 * size) (BitVec.ofNat _ m) ((c.getG rs2.toNat).setWidth _) ((c.getG rd.toNat).setWidth _)).toNat s t) ∧
    (∀ b bs, let op : MemOp := ⟨.sc rd.toNat (byteList size (c.getG rs2.toNat).toNat), va, size, false, false, ord.getLsbD 0⟩
      let key := keyOf (b :: bs)
      Resolves s n op (b :: bs) → ownsL1 s n (b.2.1 / 64) key = true → b.2.1 % 64 + size ≤ 64 → c.resv = some (b.2.1 / 64, key) →
      ∃ t : State, exec (.sc (.core n) rd rs1 rs2 ord sz) s = .next t ∧ (t.core n).pc = c.pc + 4 ∧ (t.core n).resv = none ∧
        (∀ r, (t.core n).getG r = (c.setG rd.toNat 0).getG r) ∧ L1Becomes n b.2.1 size key (c.getG rs2.toNat).toNat s t) ∧
    (c.resv = none → ∃ gr t, exec (.sc (.core n) rd rs1 rs2 ord sz) s = .next t ∧
      Unseen n (s.setCore n { (c.setG rd.toNat 1).advance with granted := gr }) t)

/-- DC instructions, device loads and guarded speculation. -/
def Obligations.CoreMemoryOther : Prop :=
  ∀ (n : Nat) (rt rb : RegNo) (d : BitVec 14) (h : Hint) (s : State), coreReady s n = true →
    let c := s.core n; let va := c.getG rb.toNat + d.signExtend 64
    (∀ e ∈ [((fun a r => Instr.dcClean a r : Agent → RegNo → Instr), 0), (fun a r => .dcCleaninv a r, 1), (fun a r => .dcInv a r, 2)],
      ∀ b, Resolves s n ⟨.dc e.2, c.getG rb.toNat, 1, false, false, false⟩ [b] →
      ∃ gr t, exec (e.1 (.core n) rb) s = .next t ∧ let line := b.2.1 / 64; let u := drainStores n s
        Unseen n ((if e.2 = 0 then cleanLine line u else
          cleanInvLine line (!(decide (e.2 = 2) && decide (2 ≤ levelNum (u.core n).level))) u).modCore n
          fun c => { c.advance with granted := gr, wait := none }) t) ∧
    (∀ e ∈ coreLoads, ∀ b bs, resolve s n ⟨.load rt.toNat e.2.2, va, e.2.1, h.s, true, false⟩ = .ok (b :: bs) →
      h.path = .retired → c.sq = [] → (∀ x ∈ b :: bs, x.2.2.mt = .device ∧ x.2.2.l1d = true) →
      (va.toNat % e.2.1 ≠ 0 → TrapReady s n → Traps n .K (BitVec.ofNat 64 4) va s (exec (e.1 (.core n) rt rb d h) s)) ∧
      (∀ i, va.toNat % e.2.1 = 0 → devTarget s (coreStop n) b.2.1 b.2.2.key = .io i → s.regF .NI_RT 1 0 (coreStop n) (ioStop i) ≠ 3 →
        ∃ (t : State) (p : Packet), exec (e.1 (.core n) rt rb d h) s = .next t ∧ t.fab.net = s.fab.net ++ [p] ∧ p.op = .RdDev ∧ p.dst = ioStop i ∧
          p.addr = b.2.1 ∧ p.arg = e.2.1 ∧ (t.core n).wait.isSome = true ∧ (t.core n).pc = c.pc ∧ (t.core n).g = c.g)) ∧
    (∀ b bs, resolve s n ⟨.loadVec rt.toNat 0xFFFFFFFF#32, va, 32, h.s, false, false⟩ = .ok (b :: bs) → h.path = .retired →
      (∀ x ∈ b :: bs, x.2.2.mt = .device ∧ x.2.2.l1d = true) → va.toNat % 32 = 0 → TrapReady s n →
      Traps n .K (BitVec.ofNat 64 5) va s (exec (.vld (.core n) rt rb d h) s)) ∧
    (h.path = .wrongPath → guarded c = true →
      (∀ e ∈ coreLoads, ∃ t : State, exec (e.1 (.core n) rt rb d h) s = .next t ∧ Unseen n s t) ∧
      (∀ e ∈ coreStores, ∃ t : State, exec (e.1 (.core n) rt rb d h) s = .next t ∧ Unseen n s t))

/-- Loads, stores, atomics and DC instructions of a pair on its TCM. -/
def Obligations.PairMemory : Prop :=
  ∀ (k : Nat) (rt rb rd : RegNo) (d : BitVec 14) (h : Hint) (ord sz : BitVec 2) (s : State), let p := s.pair k
    let num := fun a size => leNat ((List.range size).map fun i => tcmByte s k (a + i))
    let wrote := fun (a size v : Nat) (q : Pair) (o : Host.Outcome State Fault Refusal) => ∃ t : State, o = .next t ∧
      t = { s with pairs := t.pairs, tcm := t.tcm } ∧ PairsAlike (s.setPair k { q with waiting := false }) t ∧
      (∀ i, i < size → tcmByte t k (a + i) = byteOf v i) ∧
      ∀ x, (x < k * 2 ^ 19 + a ∨ k * 2 ^ 19 + a + size ≤ x) → NMap.get 0 t.tcm x = NMap.get 0 s.tcm x
    p.worldT = false →
    (let a := (p.getR rb + d.signExtend 32).toNat
     (∀ e ∈ coreLoads.take 5, PairTakes s k [rb] [rt] → a + e.2.1 ≤ 2 ^ 19 →
        PairBecomes k (p.setR rt ((extend e.2.1 e.2.2 (BitVec.ofNat 64 (num a e.2.1))).setWidth 32)).advance s (exec (e.1 (.cx k) rt rb d h) s)) ∧
     (∀ e ∈ coreStores.take 3, PairTakes s k [rb, rt] [] → a + e.2 ≤ 2 ^ 19 →
        wrote a e.2 (p.getR rt).toNat p.advance (exec (e.1 (.cx k) rt rb d h) s))) ∧
    (let a := (p.getR rb).toNat
     (PairTakes s k [rb] [rd] → sz ≠ 3 → a % 2 ^ sz.toNat = 0 → a < 2 ^ 19 →
        PairBecomes k (p.setR rd ((extend (2 ^ sz.toNat) true (BitVec.ofNat 64 (num a (2 ^ sz.toNat)))).setWidth 32)).advance s
          (exec (.lda (.cx k) rd rb sz) s)) ∧
     (PairTakes s k [rb, rt] [] → sz ≠ 3 → a % 2 ^ sz.toNat = 0 → a < 2 ^ 19 →
        wrote a (2 ^ sz.toNat) (p.getR rt).toNat p.advance (exec (.stl (.cx k) rb rt sz) s)) ∧
     (PairTakes s k [rb] [rd] → a % 4 = 0 → a < 2 ^ 19 →
        PairBecomes k { (p.setR rd (BitVec.ofNat 32 (num a 4))).advance with resv := some (2 ^ 60 + a / 64) } s (exec (.lr (.cx k) rd rb ord 2) s)) ∧
     (PairTakes s k [rb, rt] [rd] → a % 4 = 0 → a < 2 ^ 19 →
        (p.resv = some (2 ^ 60 + a / 64) →
          wrote a 4 (p.getR rt).toNat { (p.setR rd 0).advance with resv := none } (exec (.sc (.cx k) rd rb rt ord 2) s)) ∧
        (p.resv = none → PairBecomes k (p.setR rd 1).advance s (exec (.sc (.cx k) rd rb rt ord 2) s))) ∧
     (PairTakes s k [rd, rb, rt] [rd] → a % 4 = 0 → a < 2 ^ 19 → ∀ e ∈ coreAtoms,
        let m := BitVec.ofNat 32 (num a 4)
        wrote a 4 (e.2 32 m (p.getR rt) (p.getR rd)).toNat (p.setR rd m).advance (exec (e.1 (.cx k) rd rb rt ord 2) s)) ∧
     (PairTakes s k [rb] [] → a < 2 ^ 19 →
        PairBecomes k p.advance s (exec (.dcClean (.cx k) rb) s) ∧ PairBecomes k p.advance s (exec (.dcCleaninv (.cx k) rb) s) ∧
        PairBecomes k p.advance s (exec (.dcInv (.cx k) rb) s) ∧ wrote (a / 64 * 64) 64 0 p.advance (exec (.dcZero (.cx k) rb) s)))

/-- Instructions that KA-C lacks do on a pair what ILLEGAL_ENCODING does there. -/
def Obligations.PairLacks : Prop :=
  ∀ (k : Nat) (w : W32) (s : State) (r1 r2 r3 : RegNo) (p1 p2 p3 pm : BitVec 3) (esz : BitVec 2) (i10 : BitVec 10) (i14 : BitVec 14)
    (sc : BitVec 3) (b : Bool) (h : Hint),
    ∀ i ∈ [Instr.addw (.cx k) r1 r2 r3, .subw (.cx k) r1 r2 r3, .mulw (.cx k) r1 r2 r3, .divw (.cx k) r1 r2 r3,
      .divuw (.cx k) r1 r2 r3, .addiw (.cx k) r1 r2 i14, .hcall (.cx k) i10, .fcall (.cx k) i10, .gate (.cx k) r1,
      .rand (.cx k) r1 r2, .tlbi (.cx k) r1 r2 sc b, .lwu (.cx k) r1 r2 i14 h, .ld (.cx k) r1 r2 i14 h, .sd (.cx k) r1 r2 i14 h,
      .ldp (.cx k) r1 r2 i14 h, .sdp (.cx k) r1 r2 i14 h, .vld (.cx k) r1 r2 i14 h, .vst (.cx k) r1 r2 i14 h,
      .vldm (.cx k) r1 r2 pm esz h, .vstm (.cx k) r1 r2 pm esz h, .vcmp (.cx k) p1 p2 r2 r3 pm esz, .vsel (.cx k) r1 r2 r3 pm esz,
      .vbcast (.cx k) r1 r2 pm esz, .vext (.cx k) r1 r2 r3 pm esz, .vins (.cx k) r1 r2 r3 pm esz, .vperm (.cx k) r1 r2 r3 pm esz,
      .vrsum (.cx k) r1 r2 pm esz, .pnot (.cx k) p1 p2 pm esz, .pcnt (.cx k) r1 p1 pm esz] ++
      (vecVVV.map fun e => e.1 (.cx k) r1 r2 r3 pm esz) ++ (vecFp.map fun e => e.1 (.cx k) r1 r2 r3 pm esz) ++
      (vecReduce.map fun e => e.1 (.cx k) r1 r2 pm esz) ++ (predPPP.map fun e => e.1 (.cx k) p1 p2 p3 pm esz),
      exec i s = exec (.illegalEncoding (.cx k) w) s


/-! ## Events of a core beside its instructions (04.3 to 04.6, 05.3, 12.4) -/

namespace Sys2Proof.Claims

/-- A command completes in `u`: only interrupt inputs that pairs latch may differ. -/
def Settles (u : State) (o : Host.Outcome State Fault Refusal) : Prop :=
  ∃ t : State, o = .next t ∧ t = { u with pairs := t.pairs, pending := t.pending } ∧ PairsAlike u t

/-- The packet `p` stands first in the fabric, before `rest`, and the port of its stop is in RUN. -/
def First (s : State) (p : Packet) (rest : List Packet) : Prop := s.fab.net = p :: rest ∧ s.regF .NI_PORT 2 0 p.dst = 0

/-- The state once the first packet has left the fabric. -/
def without (s : State) (rest : List Packet) : State := { s with fab := { s.fab with net := rest } }

end Sys2Proof.Claims

/-- Interrupts taken and partitions stopped. -/
def Obligations.InterruptEntry : Prop :=
  ∀ (n : Nat) (s : State), coreReady s n = true → syncBlocked s n = false → let c := s.core n
    (∀ x v, interruptDue s n = some (x, v) → c.sq = [] → (c.world = .openW ∨ x = .K) →
      let d := entered x 0x200 (BitVec.ofNat 64 (2 ^ 63 + v)) 0 c
      Fetches s n d → ∃ t : State, exec (.interruptEntry n) s = .next t ∧ Unseen n (s.setCore n d) t) ∧
    (∀ v r, interruptDue s n = some (.H, v) → c.world = .sealedW → c.running = some r →
      ∃ t : State, exec (.interruptEntry n) s = .next t ∧ (t.core n).world = .openW ∧ (t.core n).level = .H ∧ (t.core n).g = [] ∧
        (t.core n).sys .openW 2 0x0C = BitVec.ofNat 64 (r.part * 256 + 0x21) ∧ (t.core n).sys .openW 2 0x0D = BitVec.ofNat 64 v) ∧
    (∀ r, c.running = some r → (peek s (r.desc + 4) 1 0).1 = 3 →
      ∃ t : State, exec (.partitionStopExit n) s = .next t ∧ (t.core n).world = .openW ∧ (t.core n).level = .H ∧ (t.core n).g = [] ∧
        (t.core n).sys .openW 2 0x0C = BitVec.ofNat 64 (r.part * 256 + 0x23) ∧ (t.core n).running = none)

/-- WFI_WAKE, C3_ENTRY_COMPLETE and C3_WAKE. -/
def Obligations.WakeAndC3 : Prop :=
  ∀ (n : Nat) (s : State), n < 144 → let c := s.core n
    (c.run = .feather → c.wakes = true → interruptDue s n = none → ∃ t : State, exec (.wfiWake n) s = .next t ∧
      Unseen n (s.setCore n { c with run := .running }) t) ∧
    (c.run = .c3Entry → c.wakes = false → ∃ t : State, exec (.c3EntryComplete n) s = .next t ∧ (t.core n).run = .c3 ∧ (t.core n).tlb = [] ∧
      (t.core n).pred = .empty ∧ (t.core n).pc = c.pc ∧ t.regF .TC_CSTATE (8 + n % 2) (8 + n % 2) (n / 2) = 1 ∧ t.dram = s.dram) ∧
    (c.run = .c3 → c.wakes = true → interruptDue s n = none → domainUp s (8 + coreRow n) = true → ∃ t : State, exec (.c3Wake n) s = .next t ∧
      (t.core n).run = .running ∧ (t.core n).pc = c.pc ∧ t.regF .TC_CSTATE (8 + n % 2) (8 + n % 2) (n / 2) = 0)

/-- What brings translations and lines to a core. -/
def Obligations.CoreFills : Prop :=
  ∀ (n : Nat) (s : State), let c := s.core n; let ctx := coreCtx s n c.level
    (coreReady s n = true → tlbHit s n ctx c.pc.toNat = none →
      (∀ e, translate s ctx c.pc.toNat .fetch = .ok e → e.mt ≠ .device → ∃ t : State, exec (.tlbFill n true) s = .next t ∧
        (tlbHit t n (coreCtx t n c.level) c.pc.toNat).isSome = true ∧ (t.core n).pc = c.pc ∧ (t.core n).g = c.g ∧ t.dram = s.dram) ∧
      (∀ f, translate s ctx c.pc.toNat .fetch = .error f → f.code = 0x10 ∨ f.code = 0x11 → TrapReady s n →
        Traps n .K (BitVec.ofNat 64 (f.wlvl * 2 ^ 11 + f.host.toNat * 2 ^ 10 + 2 * 2 ^ 8 + f.code)) (BitVec.ofNat 64 f.tval) s
          (exec (.tlbFill n true) s))) ∧
    (∀ f fs l, n < 144 → c.fills = f :: fs → c.wait = none → findLine s (.l1d n) f.1 = none → hitLine s (.l2 n) f.1 f.2.1 = some l → recovering s n f.1 = false →
      (s.fab.outs.any fun o => o.who == .core n && o.addr == f.1 && asksLine o.op) = false → liveWays s (.l1d n) ≠ [] →
      ∃ t d, exec (.l1dFill n) s = .next t ∧ hitLine t (.l1d n) f.1 f.2.1 = some d ∧ d.data = l.data ∧ d.poison = l.poison ∧
        (t.core n).fills = fs.filter (fun x => x.1 != f.1) ∧ t.dram = s.dram) ∧
    (∀ w rt se bs, n < 144 → c.run = .running → c.wait = some w → w.phase = .held → w.op.kind = .load rt se → InL1 s n w.op bs →
      w.op.acq = false → bs ≠ [] →
      Loaded n { (c.setG rt (extend w.op.size se (BitVec.ofNat 64 (l1Nat s n bs)))).advance with wait := none } s (exec (.heldLoadRelease n) s)) ∧
    (∀ line key h, n < 144 → c.mayPrefetch .stream line = some key → findLine s (.l2 n) line = none → (c.fills.any fun f => f.1 == line) = false →
      (let mine := s.fab.outs.filter fun o => o.who == .core n && asksLine o.op
       mine.length ≤ 56 ∧ (mine.any fun o => o.addr == line) = false) → recovering s n line = false →
      devTarget s (coreStop n) (line * 64) key = .home h → s.regF .NI_RT 1 0 (coreStop n) (tileStop h) ≠ 3 →
      ∃ (t : State) (p : Packet), exec (.prefetchIssue n .stream line) s = .next t ∧ t.fab.net = s.fab.net ++ [p] ∧ p.op = .RdS ∧ p.addr = line ∧ p.key = key ∧
        p.dst = tileStop h ∧ p.src = coreStop n ∧ t.lines = s.lines ∧ t.dram = s.dram)

/-! ## Homes, L2s and memory stops (05.4 to 05.7, 05.10, 06.2, 07.3) -/

/-- Requests of L2s at the port of their home. -/
def Obligations.RequestsAtPorts : Prop :=
  ∀ (n line key : Nat) (p : Packet) (rest : List Packet) (s : State),
    ∀ e ∈ [((fun a b c => Instr.rds a b c : Nat → Nat → Nat → Instr), Op.RdS), (fun a b c => .rdo a b c, .RdO), (fun a b c => .upg a b c, .Upg)],
      s.fab.net = p :: rest → fromCore e.2 n line key p = true → sliceOpen s (sliceOf p) = true →
      (s.regF .NI_PORT 2 0 p.dst = 0 → Settles (homeRequest p (without s rest)) (exec (e.1 n line key) s)) ∧
      (s.regF .NI_PORT 2 0 p.dst = 1 → Settles (s.setRegF .NI_PORT 2 0 2 p.dst) (exec (e.1 n line key) s)) ∧
      (s.regF .NI_PORT 2 0 p.dst = 2 → Settles s (exec (e.1 n line key) s)) ∧
      (∀ st, awaited p s = true → (s.regF .NI_PORT 2 0 p.dst, st) ∈ [(3, 2), (4, 2), (5, 3)] →
        Settles (without s (rest ++ [abortReply p st])) (exec (e.1 n line key) s))

/-- Transactions at a home slice with nothing else under way. -/
def Obligations.HomeServes : Prop :=
  ∀ (n h line key : Nat) (p : Packet) (rest : List Packet) (s : State), First s p rest → s.homes.txns = [] →
    n < 144 → h < 72 → s.homes.stopped.contains h = false → p.from_ = .core n → p.to_ = .home h → p.addr = line → p.key = key → p.src = coreStop n →
    (∀ w l, findDir s h line = none → findLine s (.l3 h) line = some (w, l) → l.key = key →
      (∃ v, v < 16 ∧ NMap.find? s.dir (dirKey h (cacheSet (.l3 h) line) v) = none) →
      (p.op = .RdS → l.st = .E → ∃ (t : State) (q : Packet) (e v : _), exec (.rds n line key) s = .next t ∧ q ∈ t.fab.net ∧ q.op = .DatE ∧ q.data = l.data ∧
        q.dst = coreStop n ∧ q.tid = p.tid ∧ findDir t h line = some (v, e) ∧ e.st = .EM ∧ e.owner = n ∧ e.key = key) ∧
      (p.op = .RdOnce → ∃ (t : State) (q : Packet), exec (.rdonce (coreStop n) line key) s = .next t ∧ q ∈ t.fab.net ∧ q.op = .DatRd ∧ q.data = l.data ∧
        q.tid = p.tid ∧ t.dir = s.dir)) ∧
    (∀ w e, findDir s h line = some (w, e) → e.st = .S → e.key = key → findLine s (.l3 h) line = none →
      (p.op = .RdO → e.pres ≠ 0 → ∃ t : State, exec (.rdo n line key) s = .next t ∧
        ∀ m ∈ holders e, ∃ q ∈ t.fab.net, q.op = .SnpI ∧ q.to_ = .core m ∧ q.addr = line) ∧
      (p.op = .Upg → e.pres = 1#144 <<< n → ∃ (t : State) (q : Packet), exec (.upg n line key) s = .next t ∧ q ∈ t.fab.net ∧ q.op = .CmpM ∧ q.dst = coreStop n ∧
        q.tid = p.tid)) ∧
    (findDir s h line = none → findLine s (.l3 h) line = none → p.op = .WrLine → p.flag = false → ∀ c, memOf s (tileStop h) line = some c →
      ∃ (t : State) (q : Packet) (m : _), exec (.wrline (coreStop n) line key p.data false) s = .next t ∧ q ∈ t.fab.net ∧ q.op = .Cmp ∧ q.tid = p.tid ∧
        m ∈ t.fab.net ∧ m.op = .MemWr ∧ m.data = p.data ∧ m.key = key ∧ m.addr = line)

/-- Writebacks, cleanings and eviction notices at a home, and the cleaning of a cache below and above its threshold. -/
def Obligations.Writebacks : Prop :=
  (∀ (n line : Nat) (p : Packet) (rest : List Packet) (s : State), First s p rest → p.addr = line →
    (p.op = .WBk → p.from_ = .core n → activeTxn s (sliceOf p) line = none → ∃ (t : State) (q : Packet), exec (.wbk n line) s = .next t ∧ q ∈ t.fab.net ∧ q.op = .WBAck ∧
      q.to_ = .core n ∧ q.addr = line ∧
      (s.fab.finishLevel = true → ∀ c, memOf s (tileStop (sliceOf p)) line = some c →
        ∃ m ∈ t.fab.net, m.op = .MemWr ∧ m.data = p.data ∧ m.fin = true ∧ m.addr = line)) ∧
    (p.op = .WCln → p.from_ = .core n → activeTxn s (sliceOf p) line = none → (s.homes.wbs.any fun w => w.core == n && w.line == line && w.clean) = true →
      ∃ t : State, exec (.wcln n line) s = .next t ∧ t.homes.wbs = s.homes.wbs.filter (fun w => !(w.core == n && w.line == line && w.clean)) ∧
        ∀ c, memOf s (tileStop (sliceOf p)) line = some c → ∃ m ∈ t.fab.net, m.op = .MemWr ∧ m.data = p.data ∧ m.addr = line) ∧
    (p.op = .EvC → p.from_ = .core n → wbOf s n line = none → ∀ w e, findDir s (sliceOf p) line = some (w, e) → e.st = .S → e.pres &&& ~~~(1#144 <<< n) ≠ 0 →
      ∃ t : State, exec (.evc n line) s = .next t ∧ findDir t (sliceOf p) line = some (w, { e with pres := e.pres &&& ~~~(1#144 <<< n) })) ∧
    (p.op = .WBAck → p.to_ = .core n →
      Settles (let u := without s rest
        { u with homes := { u.homes with wbs := u.homes.wbs.filter fun w => !(w.core == n && w.line == line && !w.clean) } })
        (exec (.wback n line) s))) ∧
  (∀ (n : Nat) (s : State), n < 144 →
    (∀ c, dirtyCount s c * 8 ≤ dirtyLimit s c * 7 → Settles s (exec (.backgroundClean c) s)) ∧
    (dirtyLimit s (.l2 n) * 7 < dirtyCount s (.l2 n) * 8 → (∀ l ∈ cacheLines s (.l2 n), ∃ w, findLine s (.l2 n) l.line = some (w, l)) →
      (∀ line, homeTile s (coreStop n) line ≠ none) →
      ∃ (t : State) (q : Packet), exec (.backgroundClean (.l2 n)) s = .next t ∧ q ∈ t.fab.net.drop s.fab.net.length ∧ q.op = .WCln ∧ q.from_ = .core n))

/-- Snoops at an L2 and their answers at the home. -/
def Obligations.Snoops : Prop :=
  ∀ (n line : Nat) (p : Packet) (rest : List Packet) (s : State), First s p rest → p.addr = line →
    (p.to_ = .core n → holdSnoop s n line = false → recovering s n line = false →
      (∀ w l f, findLine s (.l2 n) line = some (w, l) → findLine s (.l1d n) line = none → wbOf s n line = none → p.fwd = some f →
        let dirty := l.st = .M ∨ l.st = .O
        let answers := fun (op : Op) (k : Nat) (o : Host.Outcome State Fault Refusal) => ∃ (t : State) (a b : Packet), o = .next t ∧ t.fab.net = rest ++ [a, b] ∧
          a.op = op ∧ a.data = l.data ∧ a.poison = l.poison ∧ a.dst = f.1 ∧ a.tid = f.2.1 ∧ b.op = .SnpAck ∧ b.arg = k ∧ b.dst = p.src
        (p.op = .SnpS → (dirty → answers .DatS 2 (exec (.snps n line) s)) ∧ (¬dirty → answers .DatS 1 (exec (.snps n line) s))) ∧
        (p.op = .SnpIF → (dirty → answers .DatM 2 (exec (.snpif n line) s)) ∧ (¬dirty → answers .DatE 1 (exec (.snpif n line) s))) ∧
        (p.op = .SnpOnce → answers .DatRd 1 (exec (.snponce n line) s))) ∧
      (p.op = .SnpI → wbOf s n line = none → ∃ (t : State) (b : Packet), exec (.snpi n line) s = .next t ∧ t.fab.net = rest ++ [b] ∧ b.op = .SnpAck ∧ b.arg = 3 ∧
        b.dst = p.src) ∧
      (p.op = .SnpIF → wbOf s n line ≠ none → findLine s (.l2 n) line = none → ∃ (t : State) (b : Packet), exec (.snpif n line) s = .next t ∧
        t.fab.net = rest ++ [b] ∧ b.op = .WBP ∧ b.dst = p.src)) ∧
    (∀ x k, p.from_ = .core n → s.homes.txns = [x] → x.slice = sliceOf p → x.active = true → x.req.addr = line → x.acks = k + 2 →
      (p.op = .SnpAck → p.arg = 2 → ∃ t : State, exec (.snpack n line) s = .next t ∧
        t.homes.txns = [{ x with acks := k + 1, sentDat := true, dirty := true }]) ∧
      (p.op = .SnpAck → p.arg = 3 → ∃ t : State, exec (.snpack n line) s = .next t ∧ t.homes.txns = [{ x with acks := k + 1 }]) ∧
      (p.op = .SnpDat → ∃ t : State, exec (.snpdat n line) s = .next t ∧
        t.homes.txns = [{ x with acks := k + 1, dat := some p.data, dirty := p.flag, poison := p.poison }]) ∧
      (p.op = .WBP → ∃ t : State, exec (.wbp n line) s = .next t ∧ t.homes.txns = [{ x with acks := k + 1, wbFlight := true }]))

/-- Responses matched by an outstanding request, and one that is not. -/
def Obligations.Responses : Prop :=
  (∀ (stop tid n : Nat) (o : Out) (p : Packet) (rest : List Packet) (s : State), First s p rest → p.dst = stop → p.tid = tid → p.status = 0 →
    p.poison = false → findOut s stop tid = some o → o.held = false → answerWaits s o p = false → grantWaits s p = false →
    (o.who = .core n → n < 144 → asksLine o.op = true → liveWays s (.l2 n) ≠ [] →
      ∀ e ∈ [((fun a b => Instr.dats a b : Nat → Nat → Instr), Op.DatS, Moesi.S), (fun a b => .date a b, .DatE, .E), (fun a b => .datm a b, .DatM, .M)],
        p.op = e.2.1 → (e.2.2 = .M → atLimit (dropOut stop tid (without s rest)) (.l2 n) = false) →
        ∃ t l, exec (e.1 stop tid) s = .next t ∧ hitLine t (.l2 n) p.addr p.key = some l ∧ l.data = p.data ∧ l.st = e.2.2 ∧ l.poison = false ∧
          findOut t stop tid = none) ∧
    (o.who = .core n → o.op = .Upg → p.op = .CmpM → ∀ w l, findLine s (.l2 n) p.addr = some (w, l) →
      atLimit (dropOut stop tid (without s rest)) (.l2 n) = false →
      ∃ t l', exec (.cmpm stop tid) s = .next t ∧ findLine t (.l2 n) p.addr = some (w, l') ∧ l'.st = .M ∧ l'.data = l.data ∧
        findOut t stop tid = none) ∧
    (o.who = .core n → o.op = .WrPtl → p.op = .Cmp → Settles (dropOut stop tid (without s rest)) (exec (.cmp stop tid) s)) ∧
    (∀ w rt se, o.who = .core n → o.op = .RdDev → p.op = .DatRd → (s.core n).wait = some w → w.phase = .dev none → w.op.kind = .load rt se →
      ∃ gr t, exec (.datrd stop tid) s = .next t ∧ Unseen n ((dropOut stop tid (without s rest)).setCore n
        { ((s.core n).setG rt (extend w.op.size se (BitVec.ofNat 64 (p.data.toNat / 2 ^ (8 * (o.addr % 64)))))).advance with
          wait := none, granted := gr }) t) ∧
    (∀ k ic, o.who = .pairCache k ic → o.op = .RdOnce → p.op = .DatRd → ∃ t : State, exec (.datrd stop tid) s = .next t ∧
      PairsAlike ((dropOut stop tid (without s rest)).modPair k fun q => { q with fills := q.fills ++ [⟨ic, o.addr, p.data, false, false⟩] }) t ∧
      t.dram = s.dram ∧ t.cores = s.cores)) ∧
  (∀ (stop tid : Nat) (s : State), (stopKind stop).isSome = true → findOut s stop tid = none → s.fab.net = [] →
    ∀ i ∈ [Instr.dats stop tid, .date stop tid, .datm stop tid, .datrd stop tid, .cmp stop tid, .cmpm stop tid],
      ∃ t : State, exec i s = .next t ∧ (s.regF .NI_WD_LOG 31 16 stop < 0xFFFF → t.regF .NI_WD_LOG 31 16 stop = s.regF .NI_WD_LOG 31 16 stop + 1) ∧
        (s.regF .NI_WD_LOG 63 63 stop = 0 → t.regF .NI_WD_LOG 62 60 stop = 3) ∧ t.regF .NI_WD_LOG 63 63 stop = 1 ∧
        t.cores = s.cores ∧ t.lines = s.lines ∧ t.dram = s.dram ∧ t.fab = s.fab)


/-- Memory-stop queues and the ownership shadow. -/
def Obligations.MemoryStopRequests : Prop :=
  ∀ (mc line key who : Nat) (p : Packet) (rest : List Packet) (s : State), First s p rest → mc < 16 → who < 86 → p.to_ = .mc mc → p.addr = line → p.key = key →
    (∀ loc, localLine s mc line = some loc → (s.mc mc).dead = false → queuesFull s mc = false →
      (p.op = .MemRd → (∀ e, writeEntry s mc line = some e → e.key = key → ∃ (t : State) (q : Packet), exec (.memrd mc line key who) s = .next t ∧
          t.fab.net = rest ++ [q] ∧ q.data = e.data ∧ q.poison = e.poison ∧ q.tid = (p.fwd.getD (p.src, p.tid, p.from_)).2.1 ∧ q.status = 0) ∧
        (writeEntry s mc line = none → ∃ (t : State) (e : MemEnt), exec (.memrd mc line key who) s = .next t ∧ (t.mc mc).ents = (s.mc mc).ents ++ [e] ∧
          e.write = false ∧ e.line = line ∧ e.key = key ∧ t.fab.net = rest)) ∧
      (p.op = .MemWr → forwards s mc line = false → memOf s (mcStop mc) line = some (mc, loc) →
        (writeEntry s mc line = none → ∃ (t : State) (e : MemEnt), exec (.memwr mc line key p.data p.poison p.fin who) s = .next t ∧
          (t.mc mc).ents = (s.mc mc).ents ++ [e] ∧ e.write = true ∧ e.line = line ∧ e.key = key ∧ e.data = p.data ∧ e.poison = p.poison ∧ t.dram = s.dram) ∧
        (∀ e, writeEntry s mc line = some e → ∃ t : State, exec (.memwr mc line key p.data p.poison p.fin who) s = .next t ∧ t.dram = s.dram ∧
          (t.mc mc).ents = (s.mc mc).ents.map fun x => if x.id = e.id then
            { x with data := p.data, key, poison := p.poison, fin := x.fin || p.fin, urg := if p.fin then 3 else x.urg } else x))) ∧
    (p.op = .ShInc → ∃ t : State, exec (.shinc mc line) s = .next t ∧ shadowAt t mc line = min 15 (shadowAt s mc line + 1) ∧ t.fab.net = rest ∧ t.dram = s.dram) ∧
    (p.op = .ShDec → (rest.any fun q => q.op == .MemWr && q.addr == line) = false → ∃ t : State, exec (.shdec mc line) s = .next t ∧
      shadowAt t mc line = (if shadowAt s mc line = 15 then 15 else shadowAt s mc line - 1) ∧ t.fab.net = rest ∧ t.dram = s.dram)


/-! ## Cache upkeep, the address map and the fabric (05.4 to 05.9, 01.4, chapter 06) -/

namespace Sys2Proof.Claims

/-- A command completes, and of Chip Register Space and the pairs' interrupt inputs alone may it change anything. -/
def Writesto (s : State) (o : Host.Outcome State Fault Refusal) (P : State → Prop) : Prop := ∃ t : State, o = .next t ∧ OnlyRegs s t ∧ P t

/-- The fields of TC_WAYDIS0 and TC_WAYDIS1 of a tile ask for a way of a cache. -/
def asksWay (v : W64) (c : CacheId) (w : Nat) : Bool := (v.toNat >>> (wayField c).2.2).testBit w

/-- A route entry that no rule rejects, seen by its bits: from `stop` to `d`, with no router bypassed. -/
def plainRoute (stop d : Nat) (v : W64) : Prop :=
  (stopKind d).isSome = true ∧ fld v 15 8 = 0 ∧ (fld v 1 0 = 0 ∨ (fld v 1 0 ≠ 2 ∧ d ≠ stop))

end Sys2Proof.Claims

/-- What keeps caches working and their settings. -/
def Obligations.CacheUpkeep : Prop :=
  (∀ (n set : Nat) (s : State), n < 144 → set < 1024 → NMap.find? s.homes.recov (recovKey n set) = none →
    ∃ (t : State) (b : Bcast), exec (.l2TagRecovery n set) s = .next t ∧ NMap.find? t.homes.recov (recovKey n set) = some (BitVec.allOnes 72) ∧
      t.fab.bcasts = s.fab.bcasts ++ [b] ∧ b.kind = .tagRecov ∧ b.who = .core n ∧ b.arg = set ∧
      b.missing = (List.range 72).map tileStop ∧ t.lines = s.lines ∧ t.dir = s.dir ∧ t.dram = s.dram) ∧
  (∀ (h n set : Nat) (b : Bcast) (left : BitVec 72) (s : State), s.fab.bcasts = [b] → b.kind = .tagRecov → b.who = .core n → b.arg = set →
    NMap.find? s.homes.recov (recovKey n set) = some left → left.getLsbD h = true → s.regF .NI_PORT 2 0 (tileStop h) = 0 →
    ∃ (t : State) (q : Packet), exec (.tagrecov h n set) s = .next t ∧ t.fab.net = s.fab.net ++ [q] ∧ q.op = .BcAck ∧ q.src = tileStop h ∧ q.dst = b.src ∧
      NMap.find? t.homes.recov (recovKey n set) = some (left &&& ~~~(1#72 <<< h)) ∧ t.lines = s.lines ∧ t.dram = s.dram) ∧
  (∀ (c : CacheId) (w : Nat) (s : State), cacheIn c = true → w < cacheWays c →
    ∃ t : State, exec (.ceWindowRoll c w) s = .next t ∧ wayBuckets t c w = (0 :: (wayBuckets s c w).take 23) ++ [(wayBuckets s c w).getD 24 0] ∧
      t.crs = s.crs ∧ t.lines = s.lines ∧ t.dram = s.dram) ∧
  (∀ (tile : Nat) (hi : Bool) (v : W64) (s : State), tile < 72 →
    (∀ c ∈ wayCaches tile hi, ((List.range (cacheWays c)).filter (asksWay v c)).length ≤ disableLimit c) →
    ∃ t : State, exec (.tcWaydisWrite (.cx 2) tile hi v) s = .next t ∧
      ∀ c ∈ wayCaches tile hi, ∀ w < cacheWays c, (disabledWays t c).testBit w = asksWay v c w) ∧
  (∀ (r : Req) (tile : Nat) (hi : Bool) (v : W64) (s : State), r ≠ .cx 2 → Settles s (exec (.tcWaydisWrite r tile hi v) s)) ∧
  (∀ (r : Req) (v : W64) (s : State),
    Settles (if r = .cx 0 ∧ s.regF .CCH_MODE 1 1 = 0 then s.setReg .CCH_MODE (v &&& 3) else s) (exec (.cchModeWrite r v) s)) ∧
  (∀ (r : Req) (v : W64) (s : State), fuseLocked s .DB_CFG = false →
    Settles (if (isF r = true ∨ r = .cx 0 ∨ r = .cx 1) ∧ s.regF .DB_CFG 63 63 = 0 then s.setReg .DB_CFG (v &&& 0x8000000000003F1F) else s)
      (exec (.dbCfgWrite r v) s))

/-- The address map and two-socket tracking. -/
def Obligations.AddressMap : Prop :=
  (∀ (r : Req) (e : SamReg) (i : Nat) (v : W64) (s : State), isHF r = true ∨ r = .cx 0 → i < 8 →
    let region := e == .RADDR || e == .RCFG
    let new := s.writeReg (samName e) v 0 i
    let bad := overlaps new region i || (if region then regionBad new i else apertureBad new i)
    (bad = true → Settles (s.setRegF .SAM_STATUS 1 1 1) (exec (.samEntryWrite r e i v) s)) ∧
    (bad = false → ∃ (t : State) (b : Bcast), exec (.samEntryWrite r e i v) s = .next t ∧ t.reg (samName e) 0 i = (samName e).merge (s.reg (samName e) 0 i) v ∧
      t.regF .SAM_STATUS 0 0 = 1 ∧ t.fab.bcasts = s.fab.bcasts ++ [b] ∧ b.kind = .samUpd ∧ b.missing = allStops.filter (fun p => p != 0x02) ∧
      b.missing.length = 103 ∧ t.dram = s.dram)) ∧
  (∀ (stop : Nat) (b : Bcast) (s : State), s.fab.bcasts = [b] → b.kind = .samUpd →
    (b.missing = [stop] → ∃ t : State, exec (.samupd stop) s = .next t ∧ t.fab.bcasts = [] ∧ t.regF .SAM_STATUS 0 0 = 0 ∧
      t.regF .SAM_STATUS 31 16 = (s.regF .SAM_STATUS 31 16 + 1) % 65536 ∧ t.dram = s.dram) ∧
    (∀ p ∈ b.missing, p ≠ stop → stop ∈ b.missing →
      Settles { s with fab := { s.fab with bcasts := [{ b with missing := b.missing.filter fun p => p != stop }] } } (exec (.samupd stop) s))) ∧
  (∀ (mc line loc : Nat) (x : Bool) (s : State), mc < 16 → localLine s mc line = some loc →
    ∃ t : State, exec (.remoteGrant mc line x) s = .next t ∧
      (∀ y, NMap.find? (s.mc mc).tracker line = some y → NMap.find? (t.mc mc).tracker line = some (y || x)) ∧
      (NMap.find? (s.mc mc).tracker line = none → (s.mc mc).tracker.length < 65536 → NMap.find? (t.mc mc).tracker line = some x) ∧
      (NMap.find? (s.mc mc).tracker line = none → 65536 ≤ (s.mc mc).tracker.length →
        (t.mc mc).untracked = (s.mc mc).untracked + 1 ∧ (t.mc mc).tracker = (s.mc mc).tracker)) ∧
  (∀ (mc line : Nat) (x : Bool) (s : State), mc < 16 → (line, x) ∈ (s.mc mc).remoteSnoops →
    ∃ t : State, exec (.socketSnoop mc line x) s = .next t ∧ (t.mc mc).remoteSnoops = (s.mc mc).remoteSnoops.erase (line, x) ∧
      (∀ y, NMap.find? (s.mc mc).tracker line = some y → NMap.find? (t.mc mc).tracker line = if x then none else some false)) ∧
  (∀ (mc line : Nat) (s : State), mc < 16 →
    Settles (s.setMc mc (if (NMap.find? (s.mc mc).tracker line).isSome then { s.mc mc with tracker := NMap.erase (s.mc mc).tracker line }
      else { s.mc mc with untracked := (s.mc mc).untracked - 1 })) (exec (.evictionReport mc line) s))

/-- A stop's router, NI and port. -/
def Obligations.RoutersAndPorts : Prop :=
  (∀ (stop : Nat) (inp : PortDir) (f : Flit) (s : State), (stopKind stop).isSome = true → bypassed s stop = false →
    NMap.get [] s.fab.routers (stop * 8 + portNum inp) = [f] →
    (f.hchkOk = false → ∃ t : State, exec (.flitArrive stop inp f) s = .next t ∧ NMap.get [] t.fab.routers (stop * 8 + portNum inp) = [] ∧
      t.fab.net = s.fab.net ∧ t.fab.heldFlits = s.fab.heldFlits ∧ (BankId.fabric stop, 0x20) ∈ t.ras.dead) ∧
    (f.hchkOk = true → injArmed s (.fabric stop) 0x20 [4] (f.addr.toNat * 64) = false → probeMatch s stop inp f = false → f.plane ≠ 2 →
      f.wpt = false → s.regF .FAB_BYPASS 17 16 = 0 → ∀ dir far, NMap.get [] s.fab.routers (far * 8 + portNum (farInput dir)) = [] →
      (f.vn = false → f.dst.toNat % 16 < stop % 16 → dir = .west → far = stop - 1 →
        ∃ t : State, exec (.flitArrive stop inp f) s = .next t ∧ NMap.get [] t.fab.routers (far * 8 + portNum .east) = [f] ∧ t.fab.net = s.fab.net) ∧
      (f.vn = false → stop % 16 < f.dst.toNat % 16 → stop % 16 < 12 → dir = .east → far = stop + 1 →
        ∃ t : State, exec (.flitArrive stop inp f) s = .next t ∧ NMap.get [] t.fab.routers (far * 8 + portNum .west) = [f] ∧ t.fab.net = s.fab.net) ∧
      (f.vn = true → f.dst.toNat / 16 < stop / 16 → dir = .north → far = stop - 16 →
        ∃ t : State, exec (.flitArrive stop inp f) s = .next t ∧ NMap.get [] t.fab.routers (far * 8 + portNum .south) = [f] ∧ t.fab.net = s.fab.net))) ∧
  (∀ (stop : Nat) (s : State), (stopKind stop).isSome = true →
    (s.regF .NI_PORT 2 0 stop = 2 → NMap.get [] s.fab.heldFlits stop = [] → ∃ t : State, exec (.islandReady stop) s = .next t ∧
      t.regF .NI_PORT 2 0 stop = 0 ∧ t.regF .NI_PORT 31 16 stop = s.regF .NI_PORT 31 16 stop ∧ t.fab.net = s.fab.net ∧ t.dram = s.dram) ∧
    (s.regF .NI_PORT 2 0 stop = 4 → ∃ t : State, exec (.creditResync stop) s = .next t ∧ t.reg .NI_PORT stop = 0 ∧ t.fab = s.fab ∧ t.dram = s.dram)) ∧
  (∀ (r : Req) (stop d : Nat) (v : W64) (s : State), (stopKind stop).isSome = true → d < 256 → s.regF .FAB_BYPASS 17 16 = 0 →
    (isF r = true ∨ r = .cx 0) → plainRoute stop d v →
    Settles (s.setReg .NI_RT (RegName.NI_RT.merge (s.reg .NI_RT stop d) v) stop d) (exec (.niRtWrite r stop d v) s)) ∧
  (∀ (r : Req) (stop : Nat) (v : W64) (s : State), (stopKind stop).isSome = true →
    ((isHF r = true ∨ r = .cx 0 ∨ r = .cx 2) → Writesto s (exec (.prbCtlWrite r stop v) s) fun t =>
      t.reg .PRB_CTL stop = RegName.PRB_CTL.merge (s.reg .PRB_CTL stop) v ∧ t.regF .PRB_STATUS 62 62 stop = 0 ∧ t.regF .PRB_STATUS 20 0 stop = 0) ∧
    (¬(isHF r = true ∨ r = .cx 0 ∨ r = .cx 2) → Settles s (exec (.prbCtlWrite r stop v) s)))

/-- How lost transactions and stops that do not answer are dealt with. -/
def Obligations.WatchdogsAndFences : Prop :=
  (∀ (stop tid n : Nat) (o : Out) (s : State), findOut s stop tid = some o → o.held = false → o.who = .core n → o.op = .RdS → syncBlocked s n = false →
    (s.core n).wait = none → (s.core n).sq = [] → ∃ (t : State) (q : Packet), exec (.watchdogFire stop tid) s = .next t ∧ q ∈ t.fab.net ∧ q.op = .Fence ∧ q.dst = o.dst ∧
      ∃ x, findOut t stop tid = some x ∧ x.held = true ∧ x.marks = 9) ∧
  (∀ (stop src : Nat) (s : State), (stopKind stop).isSome = true → (stopKind src).isSome = true → s.fab.net = [] →
    NMap.get [] s.fab.heldFlits stop = [] → s.regF .NI_PORT 2 0 stop < 3 →
    ∃ t : State, exec (.fenceRequest stop src) s = .next t ∧ t.regF .NI_PORT 2 0 stop = 5 ∧ t.fab.net.length = 9 ∧
      (∀ k < 9, ∃ q ∈ t.fab.net, q.op = .FenceMark ∧ q.src = stop ∧ q.dst = src ∧ q.arg = k) ∧ t.dram = s.dram) ∧
  (∀ (stop src ch k : Nat) (p : Packet) (o : Out) (s : State), s.fab.net = [p] → p.op = .FenceMark → p.dst = stop → p.src = src → p.arg = ch →
    s.fab.outs = [o] → o.stop = stop → o.dst = src → o.tid = p.tid → o.held = true → o.marks = k + 1 →
    Settles { s with fab := { s.fab with net := [], outs := if k = 0 then [] else [{ o with marks := k }] } } (exec (.fencemark stop src ch) s)) ∧
  (∀ (stop peer : Nat) (s : State), waitsAtPort s stop = some peer → (stopKind stop).isSome = true → s.regF .NI_PORT 2 0 stop < 3 →
    ∃ t : State, exec (.ownPortStall stop) s = .next t ∧ t.regF .NI_PORT 2 0 stop = 5 ∧ NMap.get [] t.fab.heldFlits stop = [] ∧ t.dram = s.dram) ∧
  (∀ (stop src other : Nat) (k : BcastKind) (b : Bcast) (p : Packet) (s : State), s.fab.net = [p] → p.op = .BcAck → p.dst = stop → p.src = src →
    p.arg = bcastCode k → s.fab.bcasts = [b] → b.kind = k → b.src = stop → b.who = p.to_ → b.arg = p.addr → b.missing = [src, other] → src ≠ other →
    Settles { s with fab := { s.fab with net := [], bcasts := [{ b with missing := [other] }] } } (exec (.bcack stop src k) s)) ∧
  (∀ (stop m : Nat) (k : BcastKind) (b : Bcast) (s : State), s.fab.bcasts = [b] → k ≠ .samUpd → k ≠ .tagRecov → b.kind = k → b.src = stop → b.missing = [m] →
    ∃ (t : State) (q : Packet), exec (.broadcastTimeout stop k) s = .next t ∧ t.fab.bcasts = [] ∧ t.fab.net = s.fab.net ++ [q] ∧ q.op = .Fence ∧ q.src = stop ∧
      q.dst = m ∧ t.dram = s.dram)

/-- Vectors reach controllers. -/
def Obligations.InterruptDelivery : Prop :=
  (∀ (src n v : Nat) (s : State), (stopKind src).isSome = true → coreInService s n = true → 0 < v → v < 256 →
    s.regF .NI_PORT 2 0 (coreStop n) = 0 → s.fab.net = [] →
    Settles (s.setCore n ((s.core n).setPend .openW 1 v)) (exec (.intr src n .openK v) s) ∧
    Settles (s.setCore n ((s.core n).setPend .openW 2 v)) (exec (.intr src n .openH v) s) ∧
    (∀ p r, (s.core n).running = some r → r.part = p →
      Settles (s.setCore n ((s.core n).setPend .sealedW 1 v)) (exec (.intr src n (.sealedK p) v) s))) ∧
  (∀ (n v : Nat) (c : Controller) (r : Req) (s : State), n < 144 → coreInService s n = true → 0 < v → v < 256 →
    Settles (s.setCore n ((s.core n).setPend .openW 1 v)) (exec (.coreDoorbellWrite r n .openK 0 4 (BitVec.ofNat 32 v)) s) ∧
    Settles (s.setCore n ((s.core n).setPend .openW 2 v)) (exec (.coreDoorbellWrite r n .openH 0 4 (BitVec.ofNat 32 v)) s) ∧
    (∀ off size, (off ≠ 0 ∨ size ≠ 4) → ∃ t : State, exec (.coreDoorbellWrite r n c off size (BitVec.ofNat 32 v)) s = .next t ∧ t.cores = s.cores)) ∧
  (∀ (n m v : Nat) (s : State), coreReady s n = true → (s.core n).level = .H → (s.core n).world = .openW →
    coreInService s m = true → 0 < v → v < 256 →
    ∃ (t : State) (q : Packet), exec (.xVsend n true (BitVec.ofNat 64 (2 ^ 24 + m * 2 ^ 16 + v))) s = .next t ∧ t.fab.net = s.fab.net ++ [q] ∧ q.op = .Intr ∧
      q.to_ = .core m ∧ q.dst = coreStop m ∧ q.key = 1 ∧ q.arg = v ∧ (t.core n).pc = (s.core n).pc + 4 ∧ (t.core n).g = (s.core n).g ∧
      t.dram = s.dram) ∧
  (∀ (n k : Nat) (v : W64) (s : State), coreReady s n = true → (s.core n).level = .H → (s.core n).world = .openW → k < 16 →
    ∃ t : State, exec (.hVheldpMove n k v) s = .next t ∧ (t.core n).pc = (s.core n).pc + 4 ∧ (t.core n).g = (s.core n).g ∧ t.dram = s.dram ∧
      (∀ h, NMap.find? (s.core n).held k = some h → fld v 32 32 = 1 → coreInService s (fld v 55 48) = true → h.vecs = 1#256 <<< 5 →
        NMap.find? (t.core n).held k = none ∧ ∃ q : Packet, t.fab.net = s.fab.net ++ [q] ∧ q.op = .Intr ∧ q.to_ = .core (fld v 55 48) ∧
          q.addr = h.part ∧ q.key = 2 ∧ q.arg = 5))

/-- POT_INV, IOTU_INV and their broadcasts. -/
def Obligations.Invalidations : Prop :=
  (∀ (v : W64) (s : State), s.regF .POT_INV 0 0 = 0 → ∃ (t : State) (b : Bcast), exec (.potInvWrite (.cx 0) v) s = .next t ∧ t.regF .POT_INV 0 0 = 1 ∧
    t.fab.bcasts = s.fab.bcasts ++ [b] ∧ b.kind = .potInv ∧ b.a = w64 (fld v 51 12 * 4096) ∧ b.missing = allStops ∧
    (∀ n < 144, XlUnit.core n ∈ b.todo) ∧ (∀ k < 4, XlUnit.cx k ∈ b.todo) ∧ (∀ k < 12, XlUnit.iotu k ∈ b.todo) ∧
    (∀ k < 16, XlUnit.sweep k ∈ b.todo) ∧ t.dram = s.dram) ∧
  (∀ (r : Req) (v : W64) (s : State), r ≠ .cx 0 → ∃ t : State, exec (.potInvWrite r v) s = .next t ∧ t.fab = s.fab ∧
    t.reg .POT_INV = s.reg .POT_INV ∧ t.dram = s.dram) ∧
  (∀ (r : Req) (v : W64) (s : State), (r = .cx 0 ∨ (isHF r = true ∧ fld v 60 60 = 0)) → s.regF .IOTU_INV 63 63 = 0 →
    ∃ (t : State) (b : Bcast), exec (.iotuInvWrite r v) s = .next t ∧ t.regF .IOTU_INV 63 63 = 1 ∧ t.fab.bcasts = s.fab.bcasts ++ [b] ∧ b.kind = .iotuInv ∧
      b.a = v ∧ b.b = s.reg .IOTU_INVA ∧ (∀ k < 12, XlUnit.iotu k ∈ b.todo) ∧ (∀ k < 16, XlUnit.sweep k ∈ b.todo) ∧ t.dram = s.dram) ∧
  (∀ (s : State), bcastOpen s .potInv = false → Settles (s.setRegF .POT_INV 0 0 0) (exec .potInvComplete s)) ∧
  (∀ (s : State), bcastOpen s .iotuInv = false → Settles (s.setRegF .IOTU_INV 63 63 0) (exec .iotuInvComplete s)) ∧
  (∀ (n : Nat) (b : Bcast) (s : State), n < 12 → s.fab.bcasts = [b] → b.todo = [.iotu n] → b.src = 0x02 → s.regF .NI_PORT 2 0 (ioStop n) = 0 →
    (b.kind = .iotuInv → ∃ (t : State) (q : Packet), exec (.tlbiBroadcast (.iotu n) 0x02) s = .next t ∧
      (t.ioAt n).tlb = (s.ioAt n).tlb.filter (fun e => !iotuHits b.a b.b e) ∧ (t.ioAt n).ctxs = (s.ioAt n).ctxs.filter (fun e => !ctxHits b.a e) ∧
      t.fab.net = s.fab.net ++ [q] ∧ q.op = .BcAck ∧ q.src = ioStop n ∧ q.dst = 0x02) ∧
    (b.kind = .potInv → ∃ (t : State) (q : Packet), exec (.potinv (.iotu n)) s = .next t ∧
      (t.ioAt n).tlb = (s.ioAt n).tlb.filter (fun e => !coversPage b.a.toNat e) ∧
      t.fab.net = s.fab.net ++ [q] ∧ q.op = .BcAck ∧ q.src = ioStop n ∧ q.dst = 0x02)) ∧
  (∀ (n : Nat) (b : Bcast) (s : State), n < 144 → s.fab.bcasts = [b] → b.todo = [.core n] → b.kind = .tlbi → s.regF .NI_PORT 2 0 (coreStop n) = 0 →
    (s.core n).wait = none → (s.core n).sq = [] → ∃ (t : State) (q : Packet), exec (.tlbiBroadcast (.core n) b.src) s = .next t ∧
      (∀ e ∈ (t.core n).tlb, tlbiHits b.arg b.regime b.a b.b e = false) ∧ t.fab.net = s.fab.net ++ [q] ∧ q.op = .BcAck ∧ t.dram = s.dram)


/-! ## Registers, DRAM and keys (00.3, 01.3, chapter 07) -/

namespace Sys2Proof.Claims

/-- An offset of Chip Register Space where register `n` of block `u` stands, and no doorbell page or TCM window. -/
def Stands (s : State) (r : Req) (off : Nat) (n : RegName) (u i : Nat) : Prop :=
  off % 8 = 0 ∧ (stopKind (off >>> 24)).isSome = true ∧ doorbellAt off = none ∧ tcmWindow s r off = none ∧ locate off = some (n, u, i) ∧
    off ≠ trngOut ∧ ¬(0xFF4000 ≤ off % 2 ^ 24 ∧ off % 2 ^ 24 < 0xFF8000)

/-- Registers with no effect beyond their fields that level F, CX0 and CX2 write. -/
def tunables : List RegName := [.NI_WD_CFG, .MC_SCHED, .MC_RH_CFG]

/-- Channel `mc` has one request, the next command of which may be issued to subchannel `sub`. -/
def OneWaits (s : State) (mc sub : Nat) (e : MemEnt) : Prop :=
  mc < 16 ∧ sub < 2 ∧ (s.mc mc).dead = false ∧ (s.mc mc).selfRefresh = false ∧ (s.mc mc).ents = [e] ∧ e.issued = false ∧ e.ca % 2 = sub ∧
    pendingDrfm s mc sub = none ∧ mayIssue s mc e = true

/-- The bank that serves a request, and the row it asks for. -/
def bankFor (s : State) (mc : Nat) (e : MemEnt) : Nat := servingBank s mc (placeOf s mc e.ca)
def rowFor (s : State) (mc : Nat) (e : MemEnt) : Nat := (placeOf s mc e.ca).row

end Sys2Proof.Claims

/-- Reads and writes of Chip Register Space. -/
def Obligations.Registers : Prop :=
  (∀ (r : Req) (off : Nat) (n : RegName) (u i : Nat) (v : W64) (s : State), n ∈ tunables → Stands s r off n u i →
    Settles (if isF r = true ∨ r = .cx 0 ∨ r = .cx 2 then s.setReg n (n.merge (s.reg n u i) v) u i else s)
      (exec (.registerWrite r off v) s)) ∧
  (∀ (r : Req) (off : Nat) (v : W64) (s : State), isF r = false → r ≠ .cx 0 → Stands s r off .SEC_INJ_EN 0 0 →
    ∃ t : State, exec (.registerWrite r off v) s = .next t ∧ t.reg .SEC_INJ_EN = s.reg .SEC_INJ_EN ∧ t.dram = s.dram ∧ t.cores = s.cores) ∧
  (∀ (r : Req) (off : Nat) (n : RegName) (u i tid : Nat) (p : Packet) (s : State), n ∈ [.STOP_ID, .BOOT_STATUS, .NI_WD_CFG] →
    Stands s r off n u i → First s p [] → p.op = .RegRd → p.src = reqStop r → p.dst = off >>> 24 → p.tid = tid → p.addr = off → unitOf r p.from_ = true →
    ∃ q : Packet, Settles { s with fab := { s.fab with net := [q] } } (exec (.regrd r off tid) s) ∧ q.op = .RegCmp ∧ q.dst = p.src ∧ q.tid = tid ∧
      q.to_ = p.from_ ∧ q.status = 0 ∧ q.data = (s.reg n u i &&& n.shown).setWidth 512) ∧
  (∀ (r : Req) (off : Nat) (n : RegName) (u i tid : Nat) (v : W64) (p : Packet) (s : State), n ∈ tunables → (isF r = true ∨ r = .cx 0 ∨ r = .cx 2) →
    Stands s r off n u i → First s p [] → p.op = .RegWr → p.src = reqStop r → p.dst = off >>> 24 → p.tid = tid → p.addr = off → unitOf r p.from_ = true →
    p.data = v.setWidth 512 → p.mask = 0xFF →
    ∃ q : Packet, Settles ({ s with fab := { s.fab with net := [q] } }.setReg n (n.merge (s.reg n u i) v) u i) (exec (.regwr r off v 0xFF tid) s) ∧
      q.op = .RegCmp ∧ q.dst = p.src ∧ q.tid = tid ∧ q.to_ = p.from_ ∧ q.status = 0) ∧
  (∀ (stop tid n rt : Nat) (se : Bool) (w : Wait) (o : Out) (p : Packet) (rest : List Packet) (s : State), First s p rest → p.op = .RegCmp →
    p.dst = stop → p.tid = tid → p.status = 0 → findOut s stop tid = some o → o.held = false → o.op = .RegRd → o.who = .core n →
    answerWaits s o p = false → grantWaits s p = false → (s.core n).wait = some w → w.phase = .dev none → w.op.kind = .load rt se → w.op.va.toNat % 8 = 0 →
    ∃ gr t, exec (.regcmp stop tid) s = .next t ∧ Unseen n ((dropOut stop tid (without s rest)).setCore n
      { ((s.core n).setG rt (extend w.op.size se (p.data.setWidth 64))).advance with wait := none, granted := gr }) t)

/-- DRAM. -/
def Obligations.DramChannel : Prop :=
  (∀ (mc sub : Nat) (bl : List Nat) (s : State), mc < 16 → sub < 2 → (s.mc mc).dead = false → (s.mc mc).selfRefresh = false →
    (s.mc mc).refreshDue.getLsbD sub = true →
    Settles (s.setMc mc { s.mc mc with refreshDue := (s.mc mc).refreshDue &&& ~~~(1#2 <<< sub) }) (exec (.dramCommandIssue mc sub true bl) s)) ∧
  (∀ (mc sub : Nat) (e : MemEnt) (s : State), OneWaits s mc sub e → let b := bankAt s mc (bankFor s mc e)
    (b.openRow = none → ∃ t : State, exec (.dramCommandIssue mc sub false []) s = .next t ∧ (bankAt t mc (bankFor s mc e)).openRow = some (rowFor s mc e) ∧
      (t.mc mc).ents = [e] ∧ t.dram = s.dram) ∧
    (∀ r, b.openRow = some r → r ≠ rowFor s mc e → ∃ t : State, exec (.dramCommandIssue mc sub false []) s = .next t ∧
      (bankAt t mc (bankFor s mc e)).openRow = none ∧ (t.mc mc).ents = [e] ∧ t.dram = s.dram) ∧
    (b.openRow = some (rowFor s mc e) → e.write = false → ∃ t : State, exec (.dramCommandIssue mc sub false []) s = .next t ∧
      (t.mc mc).ents = [{ e with issued := true }] ∧ t.dram = s.dram) ∧
    (b.openRow = some (rowFor s mc e) → e.write = true → e.key = 0 → e.mirror = 0 → injArmed s (.mc mc) 0x30 [3] (e.line * 64) = false →
      ∃ t : State, exec (.dramCommandIssue mc sub false []) s = .next t ∧ (t.mc mc).ents = [] ∧
        (∀ i < 64, readCell t.dram (cellLine mc e.ca * 64 + i) = lineByte e.data i) ∧
        (∀ a, a < cellLine mc e.ca * 64 ∨ cellLine mc e.ca * 64 + 64 ≤ a → readCell t.dram a = readCell s.dram a))) ∧
  (∀ (mc sub : Nat) (s : State), mc < 16 → sub < 2 →
    Settles (s.setMc mc { s.mc mc with refreshDue := (s.mc mc).refreshDue ||| (1#2 <<< sub) }) (exec (.refreshDue mc sub) s)) ∧
  (∀ (mc : Nat) (s : State), mc < 16 → ∃ t : State, exec (.rhWindowClear mc) s = .next t ∧ (∀ k, (bankAt t mc k).table = [] ∧
    (bankAt t mc k).openRow = (bankAt s mc k).openRow) ∧ t.dram = s.dram) ∧
  (∀ (mc sub i age : Nat) (e : MemEnt) (s : State), mc < 16 → sub < 2 → (waiting s mc sub)[i]? = some e →
    let u := if e.fin then 3 else max e.urg (urgencyOf (s.regF .MC_LAT_TGT 15 0 mc e.port) (max e.ageNs age))
    ∃ t : State, exec (.urgencyPromotion mc sub i age) s = .next t ∧ { e with ageNs := max e.ageNs age, urg := u } ∈ (t.mc mc).ents ∧ t.dram = s.dram) ∧
  (∀ (mc sub : Nat) (e : MemEnt) (s : State), mc < 16 → (s.mc mc).ents = [e] → e.write = false → e.issued = true → e.ca % 2 = sub → e.tries = 0 →
    e.req.fwd = none → injArmed s (.mc mc) 0x30 [1] (e.line * 64) = false → injArmed s (.mc mc) 0x30 [0] (e.line * 64) = false →
    let m := NMap.get LMeta.plain s.lmeta (cellLine mc e.ca)
    (∀ d, (e.key = 0 ∧ d = rawLine s (cellLine mc e.ca)) ∨
        (e.key ≠ 0 ∧ m.enc = true ∧ keySlot s mc e.key = .loaded m.key ∧ m.tweak = e.line ∧ d = dramLine s (cellLine mc e.ca)) →
      ∃ (t : State) (q : Packet), exec (.dramReadComplete mc sub .clean) s = .next t ∧ t.fab.net = s.fab.net ++ [q] ∧ q.op = .DatRd ∧ q.dst = e.req.src ∧
        q.tid = e.req.tid ∧ q.data = d ∧ q.poison = m.poison ∧ q.status = 0 ∧ (t.mc mc).ents = [] ∧ t.dram = s.dram) ∧
    (m.poison = false → Settles (s.setMc mc { s.mc mc with ents := [{ e with tries := 1 }] }) (exec (.dramReadComplete mc sub .uncorrectable) s))) ∧
  (∀ (mc rank sub b : Nat) (s : State), mc < 16 → NMap.find? (s.mc mc).spared (rank * 2 + sub) = some (b, false) →
    ∃ t : State, exec (.sparingCopyEnd mc rank sub) s = .next t ∧ NMap.find? (t.mc mc).spared (rank * 2 + sub) = some (b, true) ∧ t.dram = s.dram) ∧
  (∀ (mc k : Nat) (s : State), mc < 16 → (k < 4 → Settles s (exec (.alertN mc k) s)) ∧
    (4 ≤ k → (s.mc mc).dead = false → ∃ t : State, exec (.alertN mc k) s = .next t ∧ (t.mc mc).dead = true ∧ (t.mc mc).ents = [] ∧
      (BankId.mc mc, 0x31) ∈ t.ras.dead ∧ t.dram = s.dram)) ∧
  (∀ (mc : Nat) (a b : EccOutcome) (s : State), mc < 16 → s.regF .MC_RAS_CFG 15 8 mc ≠ 0 → s.regF .MC_DIMM 47 32 mc ≠ 0 → (s.mc mc).dead = false →
    (s.mc mc).selfRefresh = false → (s.mc mc).ents = [] → ∃ t : State, exec (.patrolRead mc a b) s = .next t ∧
      (t.mc mc).patrol = ((s.mc mc).patrol + 1) % (s.regF .MC_DIMM 47 32 mc * 2 ^ 24) ∧
      (a = .uncorrectable → regionOf s mc (s.mc mc).patrol = none →
        (NMap.get LMeta.plain t.lmeta (cellLine mc (s.mc mc).patrol)).poison = true)) ∧
  (∀ (mc rank bank row : Nat) (s : State), mc < 16 → ∃ t : State, exec (.softPpr mc rank bank row) s = .next t ∧
    (t.mc mc).repaired = (s.mc mc).repaired ++ [(rank, bank, row)] ∧ (∀ sub < 2, (bankAt t mc (bankKey rank sub bank)).openRow = none) ∧ t.dram = s.dram)

/-- KEY_CMD and its slots. -/
def Obligations.KeySlots : Prop :=
  ∀ (slot : Nat) (s : State), slot < 4096 →
    (s.regF .KEY_STATUS 0 0 = 0 →
      Settles (((s.setRegF .KEY_STATUS 9 8 (slotCode s slot)).setRegF .KEY_STATUS 3 1 0).setRegF .KEY_STATUS 0 0 1) (exec (.keyQuery (.cx 0) slot) s) ∧
      (let k := keyData s
       let code := if slot = 0 then 1 else if k.setWidth 256 = (k >>> 256).setWidth 256 then 2 else if s.regF .KEY_EPOCH 9 9 = 1 then 3 else 0
       (code ≠ 0 → Settles ((s.setRegF .KEY_STATUS 3 1 code).setRegF .KEY_STATUS 0 0 1) (exec (.keyLoad (.cx 0) slot) s)) ∧
       (code = 0 → ∃ t : State, exec (.keyLoad (.cx 0) slot) s = .next t ∧ (∀ ch < 16, keySlot t ch slot = .loaded k) ∧ t.regF .KEY_STATUS 3 1 = 0 ∧
         t.regF .KEY_STATUS 0 0 = 1)) ∧
      (slot ≠ 0 → ∃ t : State, exec (.keyErase (.cx 0) slot) s = .next t ∧ (∀ ch < 16, keySlot t ch slot = .erased) ∧ t.regF .KEY_STATUS 3 1 = 0 ∧
        t.regF .KEY_STATUS 0 0 = 1) ∧
      (∃ t : State, exec (.keyEraseAll (.cx 0)) s = .next t ∧ (∀ ch < 16, ∀ k < 4096, k ≠ 0 → keySlot t ch k = .erased) ∧ t.regF .KEY_EPOCH 8 8 = 1 ∧
        t.regF .KEY_STATUS 0 0 = 1 ∧ t.dram = s.dram)) ∧
    (s.regF .KEY_STATUS 0 0 = 1 → Writesto s (exec .keyCommandComplete s) fun t =>
      (∀ k < 8, t.reg .KEY_DATA 0 k = 0) ∧ t.regF .KEY_STATUS 0 0 = 0 ∧ t.regF .KEY_STATUS 3 1 = s.regF .KEY_STATUS 3 1) ∧
    Settles ((s.setRegF .KEY_STATUS 63 48 0).setRegF .KEY_STATUS 47 32 0) (exec (.keyStatusClear (.cx 0)) s) ∧
    (∀ r, r ≠ .cx 0 → ∀ i ∈ [Instr.keyQuery r slot, .keyLoad r slot, .keyErase r slot, .keyEraseAll r, .keyStatusClear r],
      ∃ t : State, exec i s = .next t ∧ t.keys = s.keys ∧ t.mcs = s.mcs ∧ t.reg .KEY_STATUS = s.reg .KEY_STATUS ∧ t.dram = s.dram)


/-! ## The Sweep (chapters 08 and 09) -/

namespace Sys2Proof.Claims

/-- Queue `q` is enabled by one that may, with no job, reset or error of an earlier binding to wait for. -/
def Binds (q : Nat) (r : Req) (s : State) : Prop :=
  q < 1024 ∧ queueWriter r = true ∧ (s.queue q).resetting = false ∧ qF s .SWQ_CTL 0 0 q = 0 ∧ qF s .SWQ_CTL 1 1 q = 0

/-- The sequencer of engine `e` stands at word `w` in a routine of share `h` of job `j`. -/
def Stands' (s : State) (e : Nat) (w : W32) (h : SwShare) (j : SwJob) : Prop :=
  swInService s e = true ∧ s.regF .SW_STATUS 1 0 e < 2 ∧ swHalted s = false ∧ ucShare s e = some h ∧ shareJob s h = some j ∧
    ctrlWord s e h.uc.pc = w ∧ parityArmed s e = false

/-- A microword completes and leaves the sequencer and datapath at `u`, but for the address, which goes on. -/
def UcGoes (e : Nat) (h : SwShare) (u : Ucode) (s : State) (o : Host.Outcome State Fault Refusal) : Prop :=
  Settles (putShare e { h with uc := u.next } s) o

/-- A microword writes lanes `f` into register `xd` and nothing else but what `g` gives besides. -/
def UcLanes (e : Nat) (h : SwShare) (xd : Nat) (f : Nat → W64) (s : State) (o : Host.Outcome State Fault Refusal) : Prop :=
  ∃ x, UcGoes e h { h.uc with x := x } s o ∧ ∀ r < 8, ∀ i < 8, NMap.get 0 x (r * 8 + i) = if r = xd then f i else h.uc.lane r i

/-- The routine is over and the job's share on the engine ends with a fault. -/
def UcFaults (e : Nat) (h : SwShare) (code : Nat) (s : State) (o : Host.Outcome State Fault Refusal) : Prop :=
  ∃ row, Settles (putShare e { h with uc := { h.uc with phase := .idle }, started := true, err := some (code, row), stop := true } s) o

/-- A microword writes bytes to the allocation from `off` on, and no others. -/
def UcPuts (e : Nat) (h : SwShare) (off : Nat) (bs : List Byte) (s : State) (o : Host.Outcome State Fault Refusal) : Prop :=
  ∃ m, Settles (putShare e { h with scratch := m, uc := h.uc.next } s) o ∧
    (∀ i < bs.length, NMap.get 0 m (off + i) = bs.getD i 0) ∧
    (∀ a, a < off ∨ off + bs.length ≤ a → NMap.get 0 m a = NMap.get 0 h.scratch a)

/-- A scalar word of format S: the command, its op, and its function. -/
def isUcScalar (x : (Nat → BitVec 2 → BitVec 4 → BitVec 4 → BitVec 4 → Instr) × Nat × (W64 → W64 → W64)) : Prop :=
  x ∈ [((fun e cl d a b => .ucodeAdd e cl d a b : Nat → BitVec 2 → BitVec 4 → BitVec 4 → BitVec 4 → Instr), 0x01, fun (x y : W64) => x + y), (fun e cl d a b => .ucodeSub e cl d a b, 0x02, fun x y => x - y),
   (fun e cl d a b => .ucodeAnd e cl d a b, 0x03, fun x y => x &&& y), (fun e cl d a b => .ucodeOr e cl d a b, 0x04, fun x y => x ||| y),
   (fun e cl d a b => .ucodeXor e cl d a b, 0x05, fun x y => x ^^^ y),
   (fun e cl d a b => .ucodeShl e cl d a b, 0x06, fun x y => x <<< (y.toNat % 64)),
   (fun e cl d a b => .ucodeShr e cl d a b, 0x07, fun x y => x >>> (y.toNat % 64)),
   (fun e cl d a b => .ucodeSar e cl d a b, 0x08, fun x y => x.sshiftRight (y.toNat % 64)),
   (fun e cl d a b => .ucodeMul e cl d a b, 0x0E, fun x y => x * y)]

/-- A lane word of format X with two sources. -/
def isUcLane (x : (Nat → BitVec 2 → BitVec 3 → BitVec 3 → BitVec 3 → Instr) × Nat × (W64 → W64 → W64)) : Prop :=
  x ∈ [((fun e cl d a b => .xadd e cl d a b : Nat → BitVec 2 → BitVec 3 → BitVec 3 → BitVec 3 → Instr), 0x10, fun (x y : W64) => x + y), (fun e cl d a b => .xsub e cl d a b, 0x11, fun x y => x - y),
   (fun e cl d a b => .xand e cl d a b, 0x12, fun x y => x &&& y), (fun e cl d a b => .xior e cl d a b, 0x13, fun x y => x ||| y),
   (fun e cl d a b => .xxor e cl d a b, 0x14, fun x y => x ^^^ y), (fun e cl d a b => .xmul e cl d a b, 0x18, fun x y => x * y)]

end Sys2Proof.Claims

/-- Queues of the Sweep. -/
def Obligations.SweepQueues : Prop :=
  ∀ (q : Nat) (r : Req) (s : State),
    (Binds q r s → (bindErr s q ≠ 0 → Settles (setQF .SWQ_CTL 59 56 q (bindErr s q) s) (exec (.swqEnable r q) s)) ∧
      (bindErr s q = 0 → ∃ t : State, exec (.swqEnable r q) s = .next t ∧ qF t .SWQ_CTL 0 0 q = 1 ∧ (t.queue q).ptr = 0)) ∧
    (q < 1024 → queueWriter r = true →
      Settles ((setQF .SWQ_CTL 0 0 q 0 s).modQueue q fun x => { x with latched := false, reading := false }) (exec (.swqDisable r q) s)) ∧
    (q < 1024 → queueWriter r = true → (s.queue q).jobs = [] → (s.queue q).resetting = false → (s.queue q).latched = false →
      ∃ t : State, exec (.swqReset r q) s = .next t ∧ (t.queue q).resetting = false ∧ (t.queue q).reading = false ∧
        ∀ f ∈ [(63, 63), (47, 32), (31, 28), (27, 20), (1, 1), (0, 0)], qF t .SWQ_CTL f.1 f.2 q = 0) ∧
    (q < 1024 → queueWriter r = false → ∀ i ∈ [Instr.swqEnable r q, .swqDisable r q, .swqReset r q],
      ∃ t : State, exec i s = .next t ∧ t.sweep = s.sweep ∧ qreg t .SWQ_CTL q = qreg s .SWQ_CTL q ∧ t.dram = s.dram) ∧
    (queueLive s q = true →
      Settles (s.modQueue q fun x => { x with reading := true }) (exec (.swqDb q) s) ∧
      (polled s q = true → Settles (s.modQueue q fun x => { x with reading := true }) (exec (.qcbPoll q) s)) ∧
      (∀ w u, (s.queue q).reading = true → readQcb q (s.modQueue q fun x => { x with reading := false }) = .ok (w, u) →
        fld (w.getD 0 0) 31 0 = (s.queue q).subHead → fld (w.getD 0 0) 63 32 = (s.queue q).relHead →
        ∃ t : State, exec (.qcbReadReturn q 0) s = .next t ∧ (t.queue q).qcb = w ∧ (t.queue q).reading = false ∧
          (t.queue q).subHead = (s.queue q).subHead ∧ (t.queue q).jobs = (s.queue q).jobs)) ∧
    (∀ v, q < 1024 → swHalted s = false → qF s .SWQ_CTL 63 63 q = 0 → fld v 63 38 = 0 → fld v 29 20 = q → fld v 19 0 < poolCount s q →
      (poolGet s q (fld v 19 0) % 4 ≠ 2 ∨ poolGet s q (fld v 19 0) / 256 ≠ fld v 37 30) → bit (qreg s .SWQ_IRQD q) 32 = false →
      Settles (s.bumpReg .SWQ_CTL 47 32 (q / 64) (q % 64)) (exec (.swqReldb q v) s))

/-- Jobs and engines of the Sweep, and the loader of customer microcode. -/
def Obligations.SweepJobs : Prop :=
  (∀ (e : Nat) (h : SwShare) (j : SwJob) (s : State), engineRuns s e = true → busyShare s e = false →
    (s.engine e).shares.find? (mayStart s e) = some h → shareJob s h = some j → h.stop = false →
    (startFault s j ≠ 0 → Settles (putShare e { h with started := true, err := some (startFault s j, 0), stop := true } s) (exec (.jobStart e) s)) ∧
    (startFault s j = 0 → j.customer = false → j.pkind ≠ 3 → j.pkind ≠ 4 → j.state ≠ 1 →
      Settles (putShare e { h with started := true, operand := [] } s) (exec (.jobStart e) s))) ∧
  (∀ (e i : Nat) (h : SwShare) (j : SwJob) (u v s : State), engineRuns s e = true → activeShare s e = some h → h.uc.phase = .idle →
    shareJob s h = some j → h.stop = false → nextUnit s e j h.next = some i → j.customer = false → j.blocks = false →
    chunkWrite e j i s = .ok u → writeCounts j.queue e j { h with next := i + 1, ended := h.ended + 1, consumed := h.consumed + 1 } u = .ok v →
    Settles (putShare e { h with next := i + 1, ended := h.ended + 1, consumed := h.consumed + 1 } v) (exec (.sweepUnit e) s)) ∧
  (∀ (e : Nat) (h : SwShare) (s : State), engineRuns s e = true → ((s.engine e).shares.find? fun h => h.susp && h.resume) = some h →
    ∃ t : State, exec (.jobResume e) s = .next t ∧ { h with susp := false, resume := false } ∈ (t.engine e).shares) ∧
  (∀ (e q : Nat) (h : SwShare) (j : SwJob) (s : State), engineRuns s e = true → qF s .SWQ_CFG 55 48 q ≠ 0 →
    ((s.engine e).shares.find? fun h => h.susp && h.queue == q) = some h → shareJob s h = some j → j.err ≠ 0 → j.err ≠ 0x0E → h.bufs = [] → j.op ≠ 2 → j.queue = q →
    ∃ t : State, exec (.suspensionTimeout e q) s = .next t ∧ shareOf t e j.id = none ∧
      ∀ x, jobOf t q j.id = some x → x.done.getLsbD e = true) ∧
  (∀ (e q code row : Nat) (h : SwShare) (j : SwJob) (s : State), ((s.engine e).shares.find? fun h => h.queue == q && h.err.isSome) = some h →
    shareJob s h = some j → h.err = some (code, row) → j.err ≠ 0 → j.op ≠ 2 → h.bufs = [] → (s.queue j.queue).resetting = false →
    ∃ t : State, exec (.sweepErrorReport e q) s = .next t ∧ shareOf t e j.id = none) ∧
  (∀ (q : Nat) (j : SwJob) (s : State), (s.queue q).jobs = [j] → j.done = j.group → j.irq = false → (s.queue q).resetting = false →
    ∃ t : State, exec (.jobEnd q) s = .next t ∧ (t.queue q).jobs = [] ∧ qF t .SWQ_CTL 1 1 q = 0) ∧
  (∀ (e : Nat) (r : Req) (s : State), e < 16 →
    (swCtlWriter r = true → s.regF .SW_STATUS 1 0 e = 0 → Settles ((s.setRegF .SW_CTL 0 0 0 e).setRegF .SW_STATUS 1 0 1 e) (exec (.swStop r e) s)) ∧
    (swCtlWriter r = true → s.regF .SW_STATUS 1 0 e = 2 → Settles ((s.setRegF .SW_CTL 0 0 1 e).setRegF .SW_STATUS 1 0 0 e) (exec (.swRun r e) s)) ∧
    (swCtlWriter r = true → s.regF .SW_STATUS 1 0 e = 1 → Settles ((s.setRegF .SW_CTL 0 0 1 e).setRegF .SW_STATUS 2 2 1 e) (exec (.swRun r e) s)) ∧
    (swCtlWriter r = false → Settles s (exec (.swStop r e) s) ∧ Settles s (exec (.swRun r e) s)) ∧
    (s.regF .SW_STATUS 1 0 e = 1 → midUnit s e = false →
      Settles (if s.regF .SW_STATUS 2 2 e = 1 then (s.setRegF .SW_STATUS 1 0 0 e).setRegF .SW_STATUS 2 2 0 e else s.setRegF .SW_STATUS 1 0 2 e)
        (exec (.engineStopComplete e) s))) ∧
  (∀ (r : Req) (ms : BitVec 10) (s : State),
    (s.regF .SWU_STATUS 0 0 = 1 → Settles (s.setRegF .SWU_STATUS 1 1 1) (exec (.swuLoad r ms) s) ∧ Settles (s.setRegF .SWU_STATUS 1 1 1) (exec (.swuUnload r ms) s)) ∧
    (s.regF .SWU_STATUS 0 0 = 0 → loaderTakes s r = false →
      Settles (s.setRegF .SWU_STATUS 19 16 1) (exec (.swuLoad r ms) s) ∧ Settles (s.setRegF .SWU_STATUS 19 16 1) (exec (.swuUnload r ms) s)) ∧
    (s.regF .SWU_STATUS 0 0 = 0 → loaderTakes s r = true → ∀ e ∈ [(Instr.swuLoad r ms, 1), (.swuUnload r ms, 2)],
      ∃ t : State, exec e.1 s = .next t ∧ t.regF .SWU_STATUS 0 0 = 1 ∧ t.regF .SWU_STATUS 39 32 = reqStop r % 256 ∧ t.sweep.loader.op = e.2 ∧
        t.sweep.loader.hold = (e.2 == 2) ∧ t.sweep.loader.loaded = s.sweep.loader.loaded)) ∧
  (∀ (m : SwModule) (s : State), s.sweep.loader.op = 1 → s.sweep.loader.checked = none → readModule s 0x7A (s.regF .SWU_SRC 51 6 * 64) = .ok m →
    Settles { s with sweep := { s.sweep with loader := { s.sweep.loader with checked := some m, hold := true } } } (exec .swuModuleChecked s)) ∧
  (∀ (err w : Nat) (s : State), s.sweep.loader.op = 1 → s.sweep.loader.checked = none →
    readModule s 0x7A (s.regF .SWU_SRC 51 6 * 64) = .error (err, w) → err < 16 → ∃ t : State, exec .swuModuleChecked s = .next t ∧ t.regF .SWU_STATUS 19 16 = err ∧
      t.regF .SWU_STATUS 0 0 = 0 ∧ t.sweep.loader.op = 0 ∧ t.sweep.loader.loaded = s.sweep.loader.loaded) ∧
  (∀ (s : State), s.sweep.loader.hold = true →
    (customerRuns s = false → ∃ t : State, exec .swuHoldReached s = .next t ∧ t.regF .SWU_STATUS 19 16 = 0 ∧ t.regF .SWU_STATUS 0 0 = 0 ∧
      t.sweep.loader.hold = false ∧ t.sweep.loader.loaded = (if s.sweep.loader.op = 1 then s.sweep.loader.checked else none)) ∧
    (customerRuns s = true → ∃ t : State, exec .swuHoldTimeout s = .next t ∧ t.regF .SWU_STATUS 19 16 = 8 ∧ t.regF .SWU_STATUS 0 0 = 0 ∧
      t.sweep.loader.hold = false ∧ t.sweep.loader.loaded = s.sweep.loader.loaded))

/-- Microwords that change only what the sequencer and datapath hold. -/
def Obligations.UcodeValues : Prop :=
  ∀ (e : Nat) (cl : BitVec 2) (h : SwShare) (j : SwJob) (s : State), let u := h.uc
    (∀ x d a b, isUcScalar x → Stands' s e (ucS x.2.1 cl d a b) h j → let v := x.2.2 (u.getS a.toNat) (u.getS b.toNat)
      UcGoes e h ((u.setS d.toNat v).setC 3 (v == 0)) s (exec (x.1 e cl d a b) s)) ∧
    (∀ d a imm, Stands' s e (ucI 0x09 cl d a imm) h j → let v := u.getS a.toNat + sext imm
      UcGoes e h ((u.setS d.toNat v).setC 3 (v == 0)) s (exec (.ucodeAddi e cl d a imm) s)) ∧
    (∀ d (k : BitVec 2) imm, Stands' s e (ucI 0x0A cl d (k.setWidth 4) imm) h j →
      let v := (u.getS d.toNat &&& ~~~(0xFFFF#64 <<< (16 * k.toNat))) ||| (zext imm <<< (16 * k.toNat))
      UcGoes e h ((u.setS d.toNat v).setC 3 (v == 0)) s (exec (.ucodeMovk e cl d k imm) s)) ∧
    (∀ a b, Stands' s e (ucS 0x0B cl 0 a b) h j → let x := u.getS a.toNat; let y := u.getS b.toNat
      UcGoes e h (((u.setC 0 (x == y)).setC 1 (x.slt y)).setC 2 (x.ult y)) s (exec (.ucodeCmp e cl a b) s)) ∧
    (∀ a imm, Stands' s e (ucI 0x0C cl 0 a imm) h j → let x := u.getS a.toNat; let y := sext imm
      UcGoes e h (((u.setC 0 (x == y)).setC 1 (x.slt y)).setC 2 (x.ult y)) s (exec (.ucodeCmpi e cl a imm) s)) ∧
    (∀ d (p : BitVec 16), Stands' s e (ucI 0x0D cl d 0 p) h j → ∀ v, (p, v) ∈ [(0#16, j.a), (1, j.b), (4, w64 j.ncols), (6, w64 e), (7, w64 j.seq)] →
      UcGoes e h (u.setS d.toNat v) s (exec (.ucodeParam e cl d p) s)) ∧
    (Stands' s e (ucC 0x00 cl 0) h j → UcGoes e h u s (exec (.ucodeNop e cl) s)) ∧
    (∀ x d a b, isUcLane x → Stands' s e (ucX x.2.1 cl d a b 0 0 0 0) h j →
      UcLanes e h d.toNat (fun i => x.2.2 (u.lane a.toNat i) (u.lane b.toNat i)) s (exec (x.1 e cl d a b) s)) ∧
    (∀ d a (imm : BitVec 6), (Stands' s e (ucX 0x16 cl d a 0 0 0 0 imm) h j →
        UcLanes e h d.toNat (fun i => u.lane a.toNat i >>> imm.toNat) s (exec (.xshri e cl d a imm) s)) ∧
      (Stands' s e (ucX 0x17 cl d a 0 0 0 0 imm) h j →
        UcLanes e h d.toNat (fun i => u.lane a.toNat i <<< imm.toNat) s (exec (.xshli e cl d a imm) s))) ∧
    (∀ d a b m, Stands' s e (ucX 0x1B cl d a b 0 m 0 0) h j →
      UcLanes e h d.toNat (fun i => if (u.getM m.toNat).getLsbD i then u.lane a.toNat i else u.lane b.toNat i) s (exec (.xsel e cl d a b m) s)) ∧
    (∀ d (r : BitVec 4), Stands' s e (ucX 0x1C cl d 0 0 0 0 0 (r.setWidth 6)) h j →
      UcLanes e h d.toNat (fun _ => u.getS r.toNat) s (exec (.xbcast e cl d r) s)) ∧
    (∀ d a, Stands' s e (ucX 0x1E cl d a 0 0 0 0 0) h j →
      UcLanes e h d.toNat (fun i => w64 (crc32c (leBytes 8 (u.lane a.toNat i).toNat))) s (exec (.xcrc e cl d a) s)) ∧
    (∀ (r : BitVec 4) a l, Stands' s e (ucX 0x1D cl 0 a l 0 0 0 (r.setWidth 6)) h j →
      UcGoes e h (u.setS r.toNat (u.lane a.toNat l.toNat)) s (exec (.xext e cl r a l) s)) ∧
    (∀ d a b m c, Stands' s e (ucX 0x19 cl 0 a b d m c 0) h j → ∃ r : Byte,
      (∀ i < 8, r.getLsbD i = ((u.getM m.toNat).getLsbD i && condHolds c (u.lane a.toNat i) (u.lane b.toNat i))) ∧
      UcGoes e h (((u.setM d.toNat r).setC 4 (r == 0)).setC 5 (r == u.getM m.toNat)) s (exec (.xcmp e cl d a b m c) s)) ∧
    (∀ d a b (op : BitVec 2), Stands' s e (ucX 0x1A cl 0 0 b d a 0 (op.setWidth 6)) h j →
      let x := u.getM a.toNat; let y := u.getM b.toNat
      ∀ r, (op, r) ∈ [(0#2, x &&& y), (1, x ||| y), (2, x ^^^ y), (3, x &&& ~~~y)] →
        UcGoes e h (((u.setM d.toNat r).setC 4 (r == 0)).setC 5 (r == 0xFF)) s (exec (.mop e cl d a b op) s))

/-- The other microwords. -/
def Obligations.UcodeControl : Prop :=
  ∀ (e : Nat) (cl : BitVec 2) (h : SwShare) (j : SwJob) (s : State), let u := h.uc
    let n := allocBytes s j
    (u.target = none →
      (∀ sense annul c t, Stands' s e (ucB 0x30 cl sense annul c t) h j →
        Settles (putShare e { h with uc := if u.getC c.toNat = sense then { u with pc := u.pc + 1, target := some t.toNat }
          else { u with pc := u.pc + (if annul then 2 else 1) } } s) (exec (.ucodeBr e cl sense annul c t) s)) ∧
      (∀ t, Stands' s e (ucB 0x31 cl true false 15 t) h j →
        (u.link.length < 8 → Settles (putShare e { h with uc := { u with link := (u.pc + 2) :: u.link, pc := u.pc + 1, target := some t.toNat } } s)
          (exec (.ucodeCall e cl t) s)) ∧ (8 ≤ u.link.length → UcFaults e h 0x23 s (exec (.ucodeCall e cl t) s))) ∧
      (Stands' s e (ucC 0x32 cl 0) h j →
        (∀ r l, u.link = r :: l → Settles (putShare e { h with uc := { u with link := l, pc := u.pc + 1, target := some r } } s)
          (exec (.ucodeRet e cl) s)) ∧ (u.link = [] → UcFaults e h 0x23 s (exec (.ucodeRet e cl) s))) ∧
      (Stands' s e (ucC 0x34 cl 0) h j → u.phase = .init → Settles (putShare e { h with uc := { u with phase := .idle } } s) (exec (.ucodeDone e cl) s)) ∧
      (∀ c : Byte, Stands' s e (ucC 0x35 cl c.toNat) h j → UcFaults e h c.toNat s (exec (.ucodeFault e cl c) s)) ∧
      (∀ i ∈ [(Instr.loada e cl, 0, j.a), (.loadb e cl, 1, j.b)], Stands' s e (ucSvc cl i.2.1) h j →
        let va := (i.2.2 + u.getS 3).toNat; let off := (u.getS 1).toNat; let len := (u.getS 2).toNat
        (¬(off % 64 = 0 ∧ len % 64 = 0 ∧ off + len ≤ n ∧ va % 64 = 0) → UcFaults e h 0x21 s (exec i.1 s)) ∧
        (∀ bs v, off % 64 = 0 → len % 64 = 0 → off + len ≤ n → va % 64 = 0 → swRead j.queue e va len none s = .ok (bs, v) →
          UcPuts e h off bs v (exec i.1 s))) ∧
      (Stands' s e (ucSvc cl 2) h j →
        (u.phase = .init → UcGoes e h ((u.setS 1 0).setS 2 0) s (exec (.rowinfo e cl) s)) ∧
        (∀ l c cs, u.phase = .body → u.lane0 = some l → u.cols = c :: cs →
          UcGoes e h ((u.setS 1 (w64 (c.firstRow + l))).setS 2 (w64 c.rows)) s (exec (.rowinfo e cl) s))) ∧
      (Stands' s e (ucSvc cl 3) h j → (entKind (ucEntry s j.op) = 0 → UcFaults e h 0x24 s (exec (.flush e cl) s)) ∧
        (entKind (ucEntry s j.op) = 1 → h.bufs = [] → UcGoes e h { u with out := u.out ++ [SwItem.flush] } s (exec (.flush e cl) s))) ∧
      (let off := (u.getS 1).toNat; let len := (u.getS 2).toNat
       (Stands' s e (ucSvc cl 4) h j →
          (off % 64 = 0 → len % 64 = 0 → off + len ≤ n → UcPuts e h off (List.replicate len 0) s (exec (.zero e cl) s)) ∧
          (¬(off % 64 = 0 ∧ len % 64 = 0 ∧ off + len ≤ n) → UcFaults e h 0x21 s (exec (.zero e cl) s))) ∧
       (Stands' s e (ucSvc cl 5) h j → (u.getS 3).toNat + len ≤ n →
          UcGoes e h (u.setS 1 (w64 (crc32c (h.bytes (u.getS 3).toNat len)))) s (exec (.scrcrc e cl) s)) ∧
       (Stands' s e (ucSvc cl 6) h j → off % 8 = 0 → len % 8 = 0 → off + len ≤ n → len ≤ 65536 → ∃ bs, UcPuts e h off bs s (exec (.sort e cl) s) ∧
          bs.length = len ∧ let vals := fun (b : List Byte) => (List.range (len / 8)).map fun i => bytesNat b (8 * i) 8
          (vals bs).Perm (vals (h.bytes off len)) ∧ (vals bs).Pairwise (· ≤ ·)))) ∧
    (∀ d a m (r : BitVec 4), Stands' s e (ucX 0x1F cl d a 0 0 m 0 (r.setWidth 6)) h j →
      let at_ := fun i => (u.getS r.toNat).toNat + 8 * (u.lane a.toNat i).toNat
      let on := fun i => (u.getM m.toNat).getLsbD i
      ((∀ i < 8, on i = true → at_ i + 8 ≤ n) →
        UcLanes e h d.toNat (fun i => if on i then w64 (leNat (h.bytes (at_ i) 8)) else 0) s (exec (.xgath e cl d a m r) s)) ∧
      (∀ i < 8, on i = true → n < at_ i + 8 → UcFaults e h 0x21 s (exec (.xgath e cl d a m r) s))) ∧
    (∀ x (r : BitVec 4) (imm : BitVec 15), let off := (u.getS r.toNat).toNat + 64 * imm.toNat
      (Stands' s e (ucM 0x24 cl x r imm) h j →
        (off + 64 ≤ n → UcLanes e h x.toNat (fun i => w64 (leNat (h.bytes (off + 8 * i) 8))) s (exec (.ucodeLds e cl x r imm) s)) ∧
        (n < off + 64 → UcFaults e h 0x21 s (exec (.ucodeLds e cl x r imm) s))) ∧
      (Stands' s e (ucM 0x25 cl x r imm) h j →
        (off + 64 ≤ n → UcPuts e h off ((List.range 8).flatMap fun i => leBytes 8 (u.lane x.toNat i).toNat) s (exec (.ucodeSts e cl x r imm) s)) ∧
        (n < off + 64 → UcFaults e h 0x21 s (exec (.ucodeSts e cl x r imm) s)))) ∧
    (∀ d (c : BitVec 2), Stands' s e (ucX 0x20 cl d 0 0 0 0 0 (c.setWidth 6)) h j →
      (inUnitBody s j u = false → UcFaults e h 0x24 s (exec (.ucodeIn e cl d c) s)) ∧
      (inUnitBody s j u = true → ∃ v, UcGoes e h v s (exec (.ucodeIn e cl d c) s) ∧ v.s = u.s ∧ v.out = u.out ∧ v.pc = u.pc ∧
        let col := u.cols.getD c.toNat ⟨0, 0, []⟩; let g := NMap.get 0 u.groups c.toNat
        (∀ i < 8, v.lane d.toNat i = col.vals.getD (8 * g + i) 0 ∧ (v.getM 7).getLsbD i = decide (8 * g + i < col.rows)) ∧
        v.getC 6 = decide (col.rows ≤ 8 * (g + 1)) ∧ NMap.get 0 v.groups c.toNat = g + 1)) ∧
    (∀ m, Stands' s e (ucX 0x21 cl 0 0 0 0 m 0 0) h j →
      (inUnitBody s j u = false ∨ j.outForm = 4 → UcFaults e h 0x24 s (exec (.sel e cl m) s)) ∧
      (inUnitBody s j u = true → j.outForm ≠ 4 → ∀ l, u.lane0 = some l → UcGoes e h { u with out := u.out ++
          ((List.range 8).filter fun i => (u.getM m.toNat).getLsbD i && u.lanes.getLsbD i).map fun i => SwItem.row (l + i) } s
        (exec (.sel e cl m) s))) ∧
    (∀ a m, Stands' s e (ucX 0x22 cl 0 a 0 0 m 0 0) h j →
      (inUnitBody s j u = false ∨ j.outForm < 4 → UcFaults e h 0x24 s (exec (.putv e cl a m) s)) ∧
      (inUnitBody s j u = true → 4 ≤ j.outForm → UcGoes e h { u with out := u.out ++
          ((List.range 8).filter fun i => (u.getM m.toNat).getLsbD i).map fun i => SwItem.value (u.lane a.toNat i) } s
        (exec (.putv e cl a m) s))) ∧
    (ucShare s e = some h → UcFaults e h 0x25 s (exec (.unitBudgetExpiry e) s))


/-! ## The pairs under control (chapter 10) -/

namespace Sys2Proof.Claims

/-- Pair `k` is at its reset values, but for interrupt inputs. -/
def Started (t : State) (k : Nat) : Prop := { t.pair k with pend := 0 } = { Pair.start k with pend := 0 }

/-- What CX0 finds when level H has written PV_REQ with an address. -/
def asked (addr : Nat) (s : State) : State := raiseCx 0 1 (s.setRegF .PV_REQ 51 8 (addr / 256))

/-- Pair `k` takes an MTS to CX_RCH_CMD of an idle slot in world O. -/
def SlotIdle (s : State) (k slot : Nat) : Prop :=
  PairTakes s k [] [] ∧ slot < 4 ∧ (s.pair k).worldT = false ∧ ((s.pair k).cx (0x23 + 4 * slot)).getLsbD 31 = false

end Sys2Proof.Claims

/-- What acts on pairs beside their instructions. -/
def Obligations.PairsUnderControl : Prop :=
  ∀ (k : Nat) (s : State), k < 4 → let p := s.pair k
    (∀ r, cxsWriter s r k = true → ∃ t : State, exec (.cxsCtlReset r k) s = .next t ∧ Started t k ∧ t.tcm = s.tcm ∧
      t.regF .CXS_CTL 0 0 k = s.regF .CXS_CTL 0 0 k ∧ t.regF .CXS_CTL 7 6 k = 0) ∧
    (∀ r b, cxsWriter s r k = false → ∀ i ∈ [Instr.cxsCtlReset r k, .cxsCtlHold r k b], ∃ t : State, exec i s = .next t ∧ PairsAlike s t ∧
      t.reg .CXS_CTL k = s.reg .CXS_CTL k ∧ t.fab = s.fab) ∧
    (∀ r, cxsWriter s r k = true → s.regF .CXS_CTL 0 0 k = 1 →
      Settles ((s.setRegF .CXS_CTL 0 0 0 k).setPair k (Pair.start k)) (exec (.cxsCtlHold r k false) s)) ∧
    (∀ r, cxsWriter s r k = true → s.regF .CXS_CTL 0 0 k = 0 → ∃ t : State, exec (.cxsCtlHold r k true) s = .next t ∧ Started t k ∧
      t.regF .CXS_CTL 0 0 k = 1 ∧ t.tcm = s.tcm) ∧
    (pairAlive s k = true →
      (∀ i, p.chosen = some i → (p.cx 0).getLsbD 0 = true → p.cwp ≠ 0 → ∃ t : State, exec (.cxInterruptEntry k) s = .next t ∧
        t = { s with pairs := t.pairs } ∧ (t.pair k).cwp = nextWin p.cwp ∧ (t.pair k).frames = p.frames ++ [p.cwp] ∧
        (t.pair k).cx 1 = BitVec.ofNat 32 (2 ^ 31 + i) ∧ (t.pair k).getW (nextWin p.cwp) 15 = p.pc ∧
        (t.pair k).getW (nextWin p.cwp) 14 = p.cx 0 ∧ (t.pair k).lvl = min 4 (p.inputLevel i)) ∧
      (∀ w rest, p.cwp ≠ 0 → p.freeWins < 4 → p.frames = w :: rest →
        (p.spillBase + p.depth < p.spillLimit → ∃ u, Settles (u.setPair k { p with frames := rest, depth := p.depth + 1 }) (exec (.spill k) s) ∧
          u = { s with tcm := u.tcm } ∧ ∀ i < 16, tcmWord u k (64 * (p.spillBase + p.depth) + 4 * i) = p.getW w i) ∧
        (p.spillLimit ≤ p.spillBase + p.depth → ∃ t : State, exec (.spill k) s = .next t ∧ (t.pair k).cwp = 0 ∧ (t.pair k).cx 1 = 0x19 ∧
          (t.pair k).spillRet = p.cwp ∧ t.tcm = s.tcm)) ∧
      (∀ d, p.div = some d → Settles (s.setPair k { ({ p with cwp := d.win }.setR d.rd d.result) with cwp := p.cwp, div := none })
        (exec (.cxDivideComplete k) s))) ∧
    (∀ f, p.fills = [f] → f.icache = true → f.bad = false → ∃ t w l, exec (.cxCacheRefill k true) s = .next t ∧
      findLine t (.cxI k) f.line = some (w, l) ∧ l.data = f.data ∧ (t.pair k).fills = [] ∧ (t.pair k).pc = p.pc ∧ t.dram = s.dram) ∧
    (∀ slot (v : W32), SlotIdle s k slot → let addr := (p.cx (0x20 + 4 * slot)).toNat
      (reachTarget p addr = none → ∀ i ∈ [Instr.reachRead k slot v, .reachWrite k slot v], ∃ t : State, exec i s = .next t ∧ t.fab = s.fab ∧
        ((t.pair k).cx (0x23 + 4 * slot)).toNat / 2 ^ 28 = 5 ∧ (t.pair k).pc = p.pc + 4) ∧
      (∀ pa r w h, reachTarget p addr = some (pa, r, w) → addr % 2 ^ (v.toNat / 16 % 4) = 0 → devTarget s (svStop k) pa 0 = .home h →
        s.regF .NI_RT 1 0 (svStop k) (tileStop h) ≠ 3 → ∀ e ∈ [(Instr.reachRead k slot v, r, Op.RdOnce), (.reachWrite k slot v, w, .WrPtl)],
        e.2.1 = true → ∃ (t : State) (q : Packet), exec e.1 s = .next t ∧ t.fab.net = s.fab.net ++ [q] ∧ q.op = e.2.2 ∧ q.addr = pa / 64 ∧ q.dst = tileStop h ∧
          q.src = svStop k ∧ ((t.pair k).cx (0x23 + 4 * slot)).getLsbD 31 = true ∧ (t.pair k).pc = p.pc + 4)) ∧
    (∀ slot (st : BitVec 3) (v : W64), slot < 4 → (p.cx (0x23 + 4 * slot)).getLsbD 31 = true →
      (s.fab.outs.any fun o => o.stop == svStop k && o.who == .slot k slot) = false → ∃ t : State, exec (.reachComplete k slot st v) s = .next t ∧
        (t.pair k).cx (0x21 + 4 * slot) = v.setWidth 32 ∧ (t.pair k).cx (0x22 + 4 * slot) = (v >>> 32).setWidth 32 ∧
        ((t.pair k).cx (0x23 + 4 * slot)).toNat / 2 ^ 28 = st.toNat ∧
        ((p.cx (0x23 + 4 * slot)).getLsbD 6 = true → (t.pair k).pend.getLsbD 63 = true) ∧ t = { s with pairs := t.pairs }) ∧
    (pairAlive s k = true → (k ≠ 0 ∨ withAction s 0x20 3 = []) → ∃ t : State, exec (.lockstepMismatch k) s = .next t ∧ t.regF .CXS_CTL 7 7 k = 1 ∧
      (t.pair (reportTo k)).pend.getLsbD 3 = true ∧ (k = 0 → t.pins.alarmN = false ∧ t.regF .SEC_ALM_STATUS 5 5 = 1)) ∧
    (∀ halt : Bool, s.regF .CXS_CTL (if halt then 6 else 7) (if halt then 6 else 7) k = 1 → pairAlive s (reportTo k) = true →
      ∃ t : State, exec (.pairFaultReport k halt) s = .next t ∧ Started t k ∧ t.regF .CXS_CTL 7 6 k = 0 ∧
        t.regF .CXS_CTL 0 0 k = (if s.regF .RAS_THR 23 16 ≠ 0 ∧ s.regF .RAS_THR 23 16 ≤ (countEvent 0 k hourUs s).1 then 1
          else s.regF .CXS_CTL 0 0 k))

/-- What CX0 does for level H, and how CX3 is loaded and rung. -/
def Obligations.PartitionServices : Prop :=
  (∀ (n addr : Nat) (w : World) (s : State), addr < 2 ^ 52 → addr % 256 = 0 → let r := Req.core n .H w
    let all := [Instr.pvValidate r addr, .pvStop r addr, .pvRetire r addr]
    (s.regF .PV_RSP 63 63 = 1 → ∀ i ∈ all, Settles (s.setRegF .PV_RSP 62 62 1) (exec i s)) ∧
    (s.regF .PV_RSP 63 63 = 0 → pairAlive s 0 = true → let u := asked addr s; let dst := s.regF .PV_DST 51 8 * 256
      (validateResult u addr dst ≠ 0 → ∃ t : State, exec (.pvValidate r addr) s = .next t ∧ t.regF .PV_RSP 7 0 = validateResult u addr dst ∧
        t.dram = s.dram ∧ t.sec = s.sec) ∧
      (validateResult u addr dst = 0 → ∃ t slot key, exec (.pvValidate r addr) s = .next t ∧ t.regF .PV_RSP 7 0 = 0 ∧ (dst, slot, key) ∈ t.sec.descs) ∧
      (validTarget u addr = false → ∀ i ∈ [Instr.pvStop r addr, .pvRetire r addr], ∃ t : State, exec i s = .next t ∧ t.regF .PV_RSP 7 0 = 6 ∧
        t.dram = s.dram ∧ t.sec = s.sec) ∧
      (∀ v, validTarget u addr = true → stopDescriptor addr u = some v → Settles (v.setRegF .PV_RSP 7 0 0) (exec (.pvStop r addr) s)) ∧
      (validTarget u addr = true → (peek u (descStateAddr addr) 1 0).1 = 4 → ∃ t : State, exec (.pvRetire r addr) s = .next t ∧ t.regF .PV_RSP 7 0 = 0 ∧
        ∀ d ∈ t.sec.descs, d.1 ≠ addr))) ∧
  (∀ (k addr : Nat) (s : State), ∀ i ∈ [Instr.pvValidate (.cx k) addr, .pvStop (.cx k) addr, .pvRetire (.cx k) addr],
    ∃ t : State, exec i s = .next t ∧ t.dram = s.dram ∧ t.sec = s.sec ∧ t.reg .PV_REQ = s.reg .PV_REQ) ∧
  (∀ (r : Req) (s : State), (s.regF .CX3L_STATUS 0 0 = 1 → Settles (s.setRegF .CX3L_STATUS 4 4 1) (exec (.cx3Load r) s)) ∧
    (s.regF .CX3L_STATUS 0 0 = 0 →
      (¬(isHF r = true ∧ s.regF .CX3L_POLICY 0 0 = 1) → Settles (s.setRegF .CX3L_STATUS 3 1 1) (exec (.cx3Load r) s)) ∧
      (isHF r = true → s.regF .CX3L_POLICY 0 0 = 1 → let u := resetPair 3 (s.setRegF .CXS_CTL 0 0 1 3)
        (∀ id bs, cx3Image u = .ok (id, bs) → ∃ t : State, exec (.cx3Load r) s = .next t ∧ Started t 3 ∧ t.regF .CX3L_STATUS 3 1 = 0 ∧
          t.regF .CX3L_STATUS 63 32 = id ∧ t.regF .CXS_CTL 0 0 3 = 0 ∧ ∀ i < bs.length, tcmByte t 3 i = bs.getD i 0) ∧
        (∀ err bs, cx3Image u = .error (err, bs) → ∃ t : State, exec (.cx3Load r) s = .next t ∧ Started t 3 ∧ t.regF .CX3L_STATUS 3 1 = err ∧
          t.regF .CXS_CTL 0 0 3 = 1)))) ∧
  (∀ (r : Req) (s : State), (isHF r = true → ∃ t : State, exec (.cx3MbdbIn r) s = .next t ∧ OnlyRegs s t ∧ t.regF .CX3_MBDB 0 0 = 1 ∧
      t.regF .CX3_MBDB 1 1 = s.regF .CX3_MBDB 1 1 ∧ (t.pair 3).pend.getLsbD 62 = true) ∧
    (isHF r = false → Settles s (exec (.cx3MbdbIn r) s)) ∧
    (∃ t : State, exec (.cx3MbdbOut (.cx 3)) s = .next t ∧ t.regF .CX3_MBDB 1 1 = 1 ∧ t.regF .CX3_MBDB 0 0 = s.regF .CX3_MBDB 0 0 ∧ t.dram = s.dram) ∧
    (r ≠ .cx 3 → Settles s (exec (.cx3MbdbOut r) s)))


/-! ## Finish, power, boot and pins (chapters 11, 12, 15 and 17) -/

namespace Sys2Proof.Claims

/-- Finish may start now: none runs or has ended, and the machine is not in Catch. -/
def MayFinish (s : State) : Prop := finishing s = false ∧ finishDone s = false ∧ s.fin.catching = false

/-- A main core runs from a pc at level F in the open world, with g1 and g2, and is otherwise as after reset (R93). -/
def RunsFrom (t : State) (n : Nat) (pc : W64) (g1 g2 : Nat) : Prop :=
  t.core n = (({ Core.cold with run := .running, pc := pc }).setG 1 (w64 g1)).setG 2 (w64 g2)

/-- Every unit is at rest: cores held at their reset values, caches, directory, fabric, homes and key slots empty. -/
def AtRest (t : State) : Prop :=
  (∀ n, t.core n = Core.cold) ∧ t.lines = [] ∧ t.dir = [] ∧ t.keys = [] ∧ t.fab.net = [] ∧ t.fab.outs = [] ∧ t.homes.txns = [] ∧ t.homes.wbs = []

end Sys2Proof.Claims

/-- Finish and Catch. -/
def Obligations.FinishAndCatch : Prop :=
  ∀ (s : State),
    Settles { s with pins := { s.pins with pwrfailN := false } } (exec .pwrfailNFall s) ∧
    Settles { s with pins := { s.pins with pwrfailN := true } } (exec .pwrfailNRise s) ∧
    (s.pins.pwrfailN = true → Settles s (exec .finishTrigger s)) ∧
    (∀ r, ¬(isF r = true ∨ r = .cx 1) → Settles s (exec (.finForce r) s)) ∧
    (MayFinish s → ∀ r i, (i = Instr.finishTrigger ∧ s.pins.pwrfailN = false) ∨ (i = .finForce r ∧ (isF r = true ∨ r = .cx 1)) →
      (s.fin.released = true → ∃ t : State, exec i s = .next t ∧ t.regF .FIN_STATUS 62 62 = 1 ∧ t.regF .FIN_STATUS 61 58 = 1 ∧
        t.regF .FIN_CX3 0 0 = 0 ∧ t.fab.finishLevel = true ∧ t.fin.seq = s.fin.seq + 1 ∧ t.fin.taken = [] ∧
        t.fab.lane = s.fab.lane ++ allStops.map (fun p => (p, 0, 0)) ∧ t.regF .PWR_PKG_STATUS 3 0 = 5 ∧ t.dram = s.dram) ∧
      (s.fin.released = false → ∃ t : State, exec i s = .next t ∧ t.regF .FIN_STATUS 63 63 = 1 ∧ t.regF .FIN_STATUS 62 62 = 0 ∧
        t.regF .FIN_STATUS 57 56 = 2 ∧ t.fin.seq = s.fin.seq + 1 ∧ (∀ n < 16, (t.mc n).selfRefresh = true) ∧ t.dram = s.dram)) ∧
    (∀ h, ∃ t : State, exec (.holdupOkChange h) s = .next t ∧ t.regF .FIN_STATUS 49 49 = h.toNat ∧ t.fin.holdSince.isSome = h ∧ t.dram = s.dram) ∧
    (∀ stop, finishing s = true → s.fab.finishLevel = true → stop ∈ allStops → stop ∉ s.fin.taken → s.regF .NI_PORT 2 0 stop = 0 →
      ∃ t : State, exec (.finishMessage stop) s = .next t ∧ t.fin.taken = s.fin.taken ++ [stop] ∧
        (∀ n < 144, coreStop n = stop → (s.core n).run = .running → (t.core n).run = .stopped ∧ (t.core n).sq = []) ∧
        ((∀ p ∈ allStops, p ∈ s.fin.taken ∨ p = stop) → t.regF .FIN_STATUS 61 58 = 2)) ∧
    (finishing s = true → s.regF .FIN_STATUS 61 58 = 2 → dirtyLeft s = false → flushBusy s = false → s.regF .FIN_CFG 16 16 = 0 →
      Settles ({ s with fin := { s.fin with flushUs := s.timeUs - s.fin.startUs } }.setRegF .FIN_STATUS 61 58 5) (exec .flushComplete s)) ∧
    (finishing s = true → s.regF .FIN_STATUS 61 58 = 4 → Settles (s.setRegF .FIN_STATUS 61 58 5) (exec .finishCopyComplete s)) ∧
    Settles ({ s with fin := { s.fin with cx3Open := false } }.setRegF .FIN_CX3 0 0 1) (exec (.finCx3Done (.cx 3)) s) ∧
    (∀ r, r ≠ .cx 3 → Settles s (exec (.finCx3Done r) s)) ∧
    (finishing s = true → Settles { s with fin := { s.fin with cx3Open := false } } (exec .cx3WindowExpiry s)) ∧
    (finishing s = true → s.regF .FIN_STATUS 61 58 = 5 → s.fin.cx3Open = false → ∃ t : State, exec .finishRecord s = .next t ∧
      t.regF .FIN_STATUS 63 63 = 1 ∧ t.regF .FIN_STATUS 62 62 = 0 ∧ t.regF .FIN_STATUS 61 58 = 7 ∧
      t.regF .FIN_STATUS 57 56 = (if s.regF .FIN_REGION 0 0 = 1 then 1 else 2) ∧ t.regF .CXS_CTL 0 0 3 = 1 ∧ Started t 3 ∧
      (∀ n < 16, (t.mc n).selfRefresh = true)) ∧
    (∀ lost pl, finishDone s = true → s.fin.catching = false → s.pins.pwrfailN = true → ∃ t : State, exec (.catchStart lost pl) s = .next t ∧
      t.fin.catching = true ∧ t.fin.result = catchResult s lost ∧ t.regF .FIN_STATUS 63 63 = 1 ∧ t.dram = s.dram) ∧
    (s.fin.catching = true → s.regF .BOOT_STATUS 63 60 = 2 → ∃ t : State, exec .catchRelease s = .next t ∧ t.fin.catching = false ∧
      t.regF .FIN_STATUS 63 63 = 0 ∧ t.regF .BOOT_STATUS 63 60 = 3 ∧ ∀ n ∈ liveCores s,
        let pc := s.regF .FIN_RESUME 63 2 * 4
        RunsFrom t n (w64 (if pc = 0 then s.boot.entry else pc)) (if s.fin.result = 0 ∨ s.fin.result = 5 then s.fin.record else 0) s.fin.result)

/-- Supplies, clocks and resets. -/
def Obligations.PowerAndResets : Prop :=
  ∀ (s : State),
    (∀ st, ∃ t : State, exec (.coldPowerOn st) s = .next t ∧ AtRest t ∧ t.reg .STRAP_STATUS = st.setWidth 64 ∧ t.reg .PWR_RDY = 0 ∧ t.power.fusing = true) ∧
    (∃ t : State, exec .suppliesRemoved s = .next t ∧ AtRest t ∧ t.power.off = true ∧ t.reg .PWR_RDY = 0) ∧
    (∀ r, noReset r s = false → (∃ t : State, exec (.pwrRstWarm r) s = .next t ∧ AtRest t ∧ t.timeUs = s.timeUs) ∧
      (∃ t : State, exec (.pwrRstCold r) s = .next t ∧ AtRest t ∧ t.timeUs = 0 ∧ t.power.fusing = true)) ∧
    (∀ r, noReset r s = true → Settles s (exec (.pwrRstWarm r) s) ∧ Settles s (exec (.pwrRstCold r) s)) ∧
    (∀ ok : Bool, s.power.off = false → s.power.fusing = true → 0 ∉ s.power.stuck → s.power.refclk = true →
      Settles ({ s with power := { s.power with fusing := false } }.setRegF .PWR_RDY 3 0 15 |>.setRegF .ID_PART 0 0 ok.toNat)
        (exec (.fuseLoadComplete ok) s)) ∧
    (∀ d i, mayRaise s d = true → nextStep s d = some i →
      (i ≠ 3 → (i ≠ 1 ∨ s.power.refclk = true) → Settles (s.setRegF .PWR_RDY (4 * d + i) (4 * d + i) 1) (exec (.domainBringupStep d) s)) ∧
      (i = 3 → NMap.find? s.power.slots d = none → ∃ t : State, exec (.domainBringupStep d) s = .next t ∧ domainUp t d = true ∧ t.dram = s.dram)) ∧
    (∀ d, d < 16 → s.power.off = false → domainUp s d = false → d ∉ s.power.stuck → bit (s.reg .PWR_DOM_CTL) d = true →
      ∃ t : State, exec (.bringupTimeout d) s = .next t ∧ t.power.stuck = s.power.stuck ++ [d] ∧ t.dram = s.dram) ∧
    (s.power.refclk = true → ∃ t : State, exec .refclkLoss s = .next t ∧ t.power.refclk = false ∧ t.dram = s.dram) ∧
    Settles { s with power := { s.power with refclk := true } } (exec .refclkReturn s) ∧
    (∀ d, d < 16 → domainUp s d = true → ∃ t : State, exec (.powerGoodLoss d) s = .next t ∧ d ∈ t.power.lost ∧
      ((d = 5 ∨ d = 6 ∨ 8 ≤ d) → t.regF .PWR_RDY (4 * d + 3) (4 * d) = 0)) ∧
    (∀ r v, ¬(isF r = true ∨ r = .cx 1) → Settles s (exec (.pwrDomCtlWrite r v) s)) ∧
    (∀ r v, (isF r = true ∨ r = .cx 1) → finishing s = false → linksDisabled s = true → bit (s.reg .PWR_DOM_CTL) 5 = true → domainUp s 5 = true →
      bit v 5 = false → (∀ d, 8 ≤ d → d < 16 → bit v d = bit (s.reg .PWR_DOM_CTL) d ∧ domainUp s d = true) →
      ∃ t : State, exec (.pwrDomCtlWrite r v) s = .next t ∧ t.regF .PWR_DOM_CTL 5 5 = 0 ∧ t.regF .PWR_RDY 23 20 = 0 ∧
        t.regF .PWR_DOM_CTL 15 8 = s.regF .PWR_DOM_CTL 15 8 ∧ t.dram = s.dram) ∧
    (∀ w room, finishing s = false → s.power.off = false → ∃ t : State, exec (.grantUpdate w room) s = .next t ∧
      (∀ k < 72, baseFreq s ≤ t.regF .TC_FREQ 15 8 k ∧ t.regF .TC_FREQ 15 8 k ≤ 152) ∧ t.dram = s.dram) ∧
    (∀ stop k n c, stopKind stop = some (k, n) → k < 3 → c < 105 → ∃ t : State, exec (.thermalSample stop c) s = .next t ∧
      NMap.get 0 t.power.temps stop = c ∧ (k = 0 → 95 < c → n ∈ t.power.halved) ∧ (k = 0 → throttleC s ≤ c → n ∈ t.power.throttled) ∧
      (k ≠ 0 → t.power.throttled = s.power.throttled ∧ t.power.halved = s.power.halved) ∧ t.dram = s.dram) ∧
    (∀ k, k < 72 → k ∉ s.power.tileRst → mayStop s (2 * k) = true → mayStop s (2 * k + 1) = true → ∃ t : State, exec (.tileReset (.cx 2) k) s = .next t ∧
      k ∈ t.power.tileRst ∧ t.regF .TC_RST 1 1 k = 1 ∧ (t.core (2 * k)).run = .stopped ∧ (t.core (2 * k + 1)).run = .stopped) ∧
    (∀ k, k < 72 → k ∈ s.power.tileRst → tileQuiet s (2 * k) = true → tileQuiet s (2 * k + 1) = true → ∃ t : State, exec (.tileResetComplete k) s = .next t ∧
      t.core (2 * k) = Core.cold ∧ t.core (2 * k + 1) = Core.cold ∧ t.regF .TC_CSTATE 9 8 k = 0 ∧ t.dram = s.dram) ∧
    (∀ k, k < 72 → s.power.tileRst = [k] → (s.core (2 * k)).run = .held → (s.core (2 * k + 1)).run = .held → coreInService s (2 * k) = true →
      ∃ t : State, exec (.tileRelease (.cx 2) k) s = .next t ∧ t.power.tileRst = [] ∧ RunsFrom t (2 * k) (w64 s.boot.entry) 0 0 ∧
        RunsFrom t (2 * k + 1) (w64 s.boot.entry) 0 0 ∧ t.regF .TC_RST 1 1 k = 0) ∧
    (∀ r k, r ≠ .cx 2 → Settles s (exec (.tileReset r k) s) ∧ Settles s (exec (.tileRelease r k) s))

/-- Package states. -/
def Obligations.PackageStates : Prop :=
  ∀ (s : State),
    (pkgState s = 0 → s.regF .PWR_PKG_CFG 31 16 ≠ 0 → allIdle s = true → (List.range 16).any (midUnit s) = false →
      Settles (s.setRegF .PWR_PKG_STATUS 3 0 1) (exec .packageIdleEntry s)) ∧
    (pkgState s = 1 → Settles (s.setRegF .PWR_PKG_STATUS 3 0 0) (exec .packageIdleExit s)) ∧
    (∀ r, (isHF r = true ∨ r = .cx 1) → pkgState s < 2 → Settles (s.setRegF .PWR_PKG_STATUS 11 11 1) (exec (.pkgReqSleep r) s) ∧
      Settles (s.setRegF .PWR_PKG_STATUS 11 11 0) (exec (.pkgReqRun r) s)) ∧
    (∀ r, (isHF r = true ∨ r = .cx 1) → pkgState s = 2 → ∃ t : State, exec (.pkgReqRun r) s = .next t ∧ pkgState t = 4 ∧ t.regF .PWR_WAKE 3 0 = 6 ∧
      t.regF .PWR_WAKE 55 48 = reqStop r % 256 ∧ t.dram = s.dram) ∧
    (∀ r, ¬(isHF r = true ∨ r = .cx 1) → Settles s (exec (.pkgReqSleep r) s) ∧ Settles s (exec (.pkgReqRun r) s)) ∧
    (s.regF .PWR_PKG_STATUS 11 11 = 1 → pkgState s < 2 → allC3 s = true → ∃ t : State, exec .sleepEntryStart s = .next t ∧ pkgState t = 3 ∧
      t.regF .PWR_PKG_STATUS 11 11 = 0 ∧ (∀ n < 16, (t.mc n).selfRefresh = true) ∧ t.dram = s.dram) ∧
    (pkgState s = 3 → (List.range 16).any (midUnit s) = false → ∃ t : State, exec .sleepEntryComplete s = .next t ∧
      pkgState t = (if s.regF .PWR_PKG_STATUS 10 8 = 1 then 4 else 2) ∧ t.regF .PWR_DOM_CTL 15 8 = 0 ∧ t.regF .PWR_RDY 63 32 = 0 ∧ t.dram = s.dram) ∧
    (∀ (c : BitVec 4) (d : Byte), c.toNat ∈ [1, 2, 3, 4, 6] →
      (pkgState s = 2 → ∃ t : State, exec (.packageWake c d) s = .next t ∧ pkgState t = 4 ∧ t.regF .PWR_WAKE 3 0 = c.toNat ∧ t.regF .PWR_WAKE 55 48 = d.toNat ∧
        t.dram = s.dram) ∧
      ((pkgState s = 3 ∨ pkgState s = 4) → ∃ t : State, exec (.packageWake c d) s = .next t ∧ pkgState t = pkgState s ∧ t.regF .PWR_PKG_STATUS 10 8 = 1 ∧
        t.dram = s.dram)) ∧
    (∀ io, io < 12 → pkgState s = 2 → ∃ t : State, exec (.linkWake io) s = .next t ∧ pkgState t = 4 ∧ t.regF .PWR_WAKE 3 0 = 4 ∧ t.regF .PWR_WAKE 55 48 = io) ∧
    (∀ pin, pin < 32 → bit (s.reg .GPIO_WAKE) pin = true → pinDriver s pin = none → pkgState s = 2 → ∃ t : State, exec (.gpioWake pin) s = .next t ∧
      pkgState t = 4 ∧ t.regF .PWR_WAKE 3 0 = 1 ∧ t.regF .PWR_WAKE 55 48 = pin) ∧
    (pkgState s = 4 → ∃ t : State, exec .packageRunReached s = .next t ∧ pkgState t = 0 ∧ t.regF .PWR_DOM_CTL 15 8 = 0xFF ∧
      (s.regF .PWR_PKG_STATUS 10 8 = 2 → t.regF .PWR_PKG_STATUS 11 11 = 1) ∧ (∀ n < 16, (t.mc n).selfRefresh = false) ∧ t.dram = s.dram) ∧
    (∀ mc, mc < 16 → pkgState s = 2 → (s.mc mc).ents = [] → Settles (s.setMc mc { s.mc mc with selfRefresh := true }) (exec (.selfRefreshReturn mc) s)) ∧
    (∀ v, Settles (s.setReg .AO_TIMER (RegName.AO_TIMER.merge (s.reg .AO_TIMER) v)) (exec (.aoTimerWrite (.cx 1) v) s)) ∧
    (∀ r v, r ≠ .cx 1 → ∃ t : State, exec (.aoTimerWrite r v) s = .next t ∧ t.reg .AO_TIMER = setFld (s.reg .AO_TIMER) 62 62 1 ∧ t.dram = s.dram) ∧
    (s.regF .AO_TIMER 63 63 = 1 → ∃ t : State, exec .aoTimerExpiry s = .next t ∧ t.regF .AO_TIMER 63 63 = 0 ∧ t.regF .AO_TIMER 47 0 = 0 ∧
      (t.pair 1).pend.getLsbD 1 = true ∧ (pkgState s = 2 → pkgState t = 4 ∧ t.regF .PWR_WAKE 3 0 = 2) ∧ t.dram = s.dram)

/-- Boot, recovery and pins. -/
def Obligations.BootAndPins : Prop :=
  ∀ (s : State),
    (bootReady s = true → s.fin.catching = false → ∃ t : State, exec .bootStart s = .next t ∧ t.dram = s.dram ∧
      (copyCode s false ≠ 0 → copyCode s true ≠ 0 → t.regF .BOOT_STATUS 63 60 = 4 ∧ ∀ k ∈ [1, 2, 3], t.regF .CXS_CTL 0 0 k = 1) ∧
      (copyCode s false = 0 → copyCode s true ≠ 0 → t.regF .BOOT_STATUS 63 60 = 1 ∧ t.regF .BOOT_STATUS 56 56 = 0)) ∧
    (s.regF .BOOT_STATUS 63 60 = 1 → pairAlive s 0 = true → (∀ d < 8, domainUp s d = true) →
      (copyRecs s (copyBase (bit (s.reg .BOOT_STATUS) 56))).getD [] = [] → ∃ t : State, exec .bootCommit s = .next t ∧ t.regF .BOOT_STATUS 63 60 = 2 ∧
        t.power.lost = [] ∧ ∀ n < 12, (t.ioAt n).cfg = s.reg .IO_CFG n) ∧
    (s.regF .BOOT_STATUS 63 60 = 2 → s.fin.catching = false → finishDone s = false → ∃ t : State, exec .coreRelease s = .next t ∧
      t.regF .BOOT_STATUS 63 60 = 3 ∧ t.regF .CCH_MODE 1 1 = 1 ∧ (∀ n ∈ liveCores s, RunsFrom t n (w64 s.boot.entry) 0 6) ∧ t.dram = s.dram) ∧
    (∀ r v, recoveryOpen s r = false → ∀ i ∈ [Instr.bootRcvData r v, .bootRcvErase r, .bootRcvProgram r, .bootRcvColdReset r], Settles s (exec i s)) ∧
    (recoveryOpen s .debug = true →
      (∀ v, s.boot.page.length < 256 → Settles { s with boot := { s.boot with page := s.boot.page ++ leBytes 8 v.toNat } } (exec (.bootRcvData .debug v) s)) ∧
      (let off := s.regF .BOOT_RCV_ADDR 31 0 / 65536 * 65536
       off + 65536 ≤ 2 * copySize → ∃ t : State, exec (.bootRcvErase .debug) s = .next t ∧ t.reg .BOOT_RCV_CMD = 0 ∧
         ∀ a, NMap.get 0xFF t.boot.flash a = if off ≤ a ∧ a < off + 65536 then 0xFF else NMap.get 0xFF s.boot.flash a) ∧
      (let off := s.regF .BOOT_RCV_ADDR 31 0 / 256 * 256
       off + 256 ≤ 2 * copySize → ∃ t : State, exec (.bootRcvProgram .debug) s = .next t ∧ t.reg .BOOT_RCV_CMD = 0 ∧ t.boot.page = [] ∧
         ∀ i < s.boot.page.length, NMap.get 0xFF t.boot.flash (off + i) = NMap.get 0xFF s.boot.flash (off + i) &&& s.boot.page.getD i 0) ∧
      (∃ t : State, exec (.bootRcvColdReset .debug) s = .next t ∧ AtRest t ∧ t.power.fusing = true)) ∧
    (∀ r f v, f < 10 → fuseLocked s .MUX_FN = false →
      (pinWriter r = false → Settles s (exec (.muxFnWrite r f v) s)) ∧
      (pinWriter r = true → (s.regF .MUX_STATUS 63 63 = 1 ∨ muxConflict s f v = true) →
        Settles ((s.setRegF .MUX_STATUS 8 8 1).setRegF .MUX_STATUS 3 0 f) (exec (.muxFnWrite r f v) s)) ∧
      (pinWriter r = true → s.regF .MUX_STATUS 63 63 = 0 → muxConflict s f v = false → ∃ t : State, exec (.muxFnWrite r f v) s = .next t ∧
        t.reg .MUX_FN 0 f = muxWord f v ∧ (∀ p < 32, pinDriver t p ≠ pinDriver s p → p ∈ t.pins.switching) ∧ t.dram = s.dram)) ∧
    (∀ p, ∃ t : State, exec (.pinSwitchComplete p) s = .next t ∧ p ∉ t.pins.switching ∧ (∀ x, x ≠ p → (x ∈ t.pins.switching ↔ x ∈ s.pins.switching)) ∧
      t.crs = s.crs) ∧
    (domainUp s 7 = true → (∀ e ∈ [(Instr.jtagBypass, Jtag.bypass), (.jtagSamplePreload, .samplePreload)],
        Settles { s with pins := { s.pins with jtag := e.2 } } (exec e.1 s)) ∧
      (∀ e ∈ [(Instr.jtagExtest, Jtag.extest), (.jtagClamp, .clamp), (.jtagHighz, .highz)],
        Settles { s with pins := { s.pins with jtag := if s.pins.coreRan then .bypass else e.2 } } (exec e.1 s))) ∧
    Settles { s with pins := { s.pins with jtag := .bypass } } (exec .testLogicReset s) ∧
    (∀ io l, io < 12 → l < linkCount s io → perstOutput s io l = true → islandUp s io = true → serdesUp s = true →
      persOf s io ∈ [1, 2, 3] → ∃ t : State, exec (.perstNDrivenHigh io l) s = .next t ∧ (t.ioAt io).perst = (s.ioAt io).perst ||| BitVec.ofNat 4 (2 ^ l) ∧
        t.crs = s.crs ∧ t.dram = s.dram)


/-! ## I/O stops and the endpoint (chapter 13) -/

namespace Sys2Proof.Claims

/-- A request is answered: a packet for its source and transaction number leaves with a status. -/
def Answered (p : Packet) (status : Nat) (t : State) : Prop :=
  ∃ q ∈ t.fab.net, q.dst = p.src ∧ q.tid = p.tid ∧ q.to_ = p.from_ ∧ q.status = status

/-- What leaves on the links of a stop grows by some TLPs. -/
def Leaves (io : Nat) (xs : List OutTlp) (s t : State) : Prop := (t.ioAt io).egress = (s.ioAt io).egress ++ xs

/-- Root port `io` takes a TLP: Table 13-19 finds nothing wrong with it. -/
def PortTakes (s : State) (io : Nat) (t : Tlp) : Prop :=
  portTakes s io t = true ∧ t.malformed = false ∧ t.unsupported = false ∧ (persOf s io = 1 ∨ persOf s io = 2)

/-- No Erg counter of a stop counts an inbound transaction of a case (Table 16-8). -/
def Uncounted (s : State) (io kase : Nat) : Prop := uncEvent (.io io) 0x300 [kase] 1 0 s = s

/-- Function `fn` is there, the host reaches it, and no reset of it is in progress. -/
def FnReady (s : State) (fn : Nat) : Prop := epUp s = true ∧ fn ≤ 1024 ∧ fnPresent s fn = true ∧ (s.fnAt fn).flr = false

/-- The host's memory accesses reach a VF that is in use. -/
def VfReady (s : State) (vf : Nat) : Prop :=
  FnReady s vf ∧ finishing s = false ∧ vf ≠ 0 ∧ (s.fnAt vf).mse = true ∧ bit (s.reg .EP_VF0 0 vf) 63 = true

/-- The TLP that a raise of a vector is. -/
def msixTlp (fn v : Nat) : OutTlp := ⟨0, .message, fn, 0, w64 v, 0, [], .sc, false⟩

/-- What a raise of vector `v` of a function leaves beside its effect on counters (R556). -/
def Raised (fn v : Nat) (s t : State) : Prop :=
  if msixOpen (s.fnAt fn) v = true ∧ epUp s = true then Leaves (activeEp s) [msixTlp fn v] s t ∧ t.io.fns = s.io.fns
  else (t.fnAt fn).pend.getLsbD v = true ∧ ∀ n, (t.ioAt n).egress = (s.ioAt n).egress

end Sys2Proof.Claims

/-- I/O stops, their links and what crosses them. -/
def Obligations.LinksAndInbound : Prop :=
  ∀ (io : Nat) (s : State), io < 12 →
    (∀ v, bit (s.reg .IO_CFG io) 63 = false → badIoCfg s io v = false →
      Settles (s.setReg .IO_CFG (RegName.IO_CFG.merge (s.reg .IO_CFG io) v) io) (exec (.ioCfgWrite (.cx 0) io v) s)) ∧
    (∀ r v, (r ≠ .cx 0 ∨ bit (s.reg .IO_CFG io) 63 = true ∨ badIoCfg s io v = true) →
      Writesto s (exec (.ioCfgWrite r io v) s) fun t => t.reg .IO_CFG io = s.reg .IO_CFG io) ∧
    (∀ r, (isF r = true ∨ r = .cx 0 ∨ r = .cx 2) → s.regF .IO_CFG 3 0 io ≠ 4 → ∃ t : State, exec (.ioRstReset r io) s = .next t ∧
      (∀ k < 4, linkUp t io k = false) ∧ (t.ioAt io).cfg = s.reg .IO_CFG io ∧ (t.ioAt io).tags = [] ∧ (t.ioAt io).egress = [] ∧
      t.regF .NI_PORT 2 0 (ioStop io) = 4 ∧ t.dram = s.dram) ∧
    (∀ k (rate : BitVec 3) (width : BitVec 4) (cxl flit : Bool), islandUp s io = true → serdesUp s = true → linkUp s io k = false →
      k < linkCount s io → persOf s io ≠ 3 → rate ≠ 0 → rate.toNat ≤ maxRate s io → width.toNat ≤ linkWidth s io k →
      (cxl = true → persOf s io = 2) → (rate = 6 → flit = true) → Writesto s (exec (.linkUp io k rate width cxl flit) s) fun t =>
        linkUp t io k = true ∧ t.regF .IO_LINK 62 60 io k = rate.toNat ∧ t.regF .IO_LINK 59 56 io k = width.toNat ∧
        t.regF .IO_LINK 55 55 io k = cxl.toNat ∧ t.regF .IO_LINK 54 54 io k = flit.toNat ∧
        t.regF .IO_LINK 47 32 io k = replayUs rate.toNat ∧ t.regF .IO_LINK 31 16 io k = s.regF .IO_LINK 31 16 io k) ∧
    (∀ k, linkUp s io k = true → ∃ t : State, exec (.linkDown io k) s = .next t ∧ linkUp t io k = false ∧
      (∀ x ∈ (t.ioAt io).egress, x.link ≠ k) ∧ (∀ e ∈ (t.ioAt io).tags, e.2.link = k → e.2.req = none) ∧
      (∀ e ∈ (s.ioAt io).tags, e.2.link = k → ∀ p, e.2.req = some p → Answered p 4 t) ∧ t.dram = s.dram) ∧
    (∀ (lo hi : Byte) (feat : BitVec 4), islandUp s io = true → serdesUp s = true → persOf s io = 3 → linkUp s io 0 = false →
      (socketFirst s io = none → Writesto s (exec (.socketLinkTrained io lo hi feat) s) fun t =>
        linkUp t io 0 = true ∧ t.regF .IO_SL 31 24 io = (socketTerms lo hi feat).1 ∧ t.regF .IO_SL 3 0 io = (socketTerms lo hi feat).2.1 ∧
        t.regF .IO_SL 48 48 io = (socketTerms lo hi feat).2.2.toNat ∧ t.regF .IO_SL 39 32 io = lo.toNat ∧ t.regF .IO_SL 47 40 io = hi.toNat) ∧
      (∀ m, socketFirst s io = some m → socketFits s m lo hi feat = true → Writesto s (exec (.socketLinkTrained io lo hi feat) s) fun t =>
        linkUp t io 0 = true ∧ t.regF .IO_SL 31 24 io = s.regF .IO_SL 31 24 m ∧ t.regF .IO_SL 3 0 io = s.regF .IO_SL 3 0 m) ∧
      (∀ m, socketFirst s io = some m → socketFits s m lo hi feat = false → Writesto s (exec (.socketLinkTrained io lo hi feat) s) fun t =>
        linkUp t io 0 = false)) ∧
    (persOf s io = 3 → linkUp s io 0 = true → bit (s.reg .IO_SL io) 2 = true → MayFinish s → s.fin.released = true →
      ∃ t : State, exec (.finishForwarding io) s = .next t ∧ finishing t = true ∧ t.fin.seq = s.fin.seq + 1 ∧ t.dram = s.dram) ∧
    (∀ src line key data mask addr size p rest, First s p rest → p.to_ = .io io → p.dst = ioStop io → p.src = src → (stopKind src).isSome = true →
      let k := (outLink s p).1
      (p.op = .RdDev → p.addr = addr → p.arg = size →
        (∀ tag, linkUp s io k = true → freeTag s io = some tag → ∃ t : State, exec (.rddev src (ioStop io) addr size) s = .next t ∧ t.fab.net = rest ∧
          NMap.find? (t.ioAt io).tags tag = some ⟨k, some p⟩ ∧
          Leaves io [⟨k, if (outLink s p).2 then .config else .memRead, 0, tag, w64 addr, size, [], .sc, p.poison⟩] s t ∧ t.dram = s.dram) ∧
        (linkUp s io k = false → ∃ t : State, exec (.rddev src (ioStop io) addr size) s = .next t ∧ Answered p 4 t ∧ t.dram = s.dram)) ∧
      (p.op = .WrPtl → p.addr / 64 = line → p.key = key → p.data = data → p.mask = mask → linkUp s io k = true → (outLink s p).2 = false →
        ∃ t : State, exec (.wrptl src line key data mask) s = .next t ∧ Answered p 0 t ∧ t.dram = s.dram ∧
          Leaves io ((maskRuns mask).map fun r =>
            ⟨k, .memWrite, 0, 0, w64 (line * 64 + r.1), r.2, ((lineBytes data).drop r.1).take r.2, .sc, p.poison⟩) s t)) ∧
    (∀ tag k p, islandUp s io = true → NMap.find? (s.ioAt io).tags tag = some ⟨k, some p⟩ →
      (∀ data, linkUp s io k = true → (p.op = .RdDev → data.length = p.arg) → ∃ (t : State) (q : Packet), exec (.completionReceived io tag .sc data) s = .next t ∧
        t.fab.net = s.fab.net ++ [q] ∧ q.dst = p.src ∧ q.tid = p.tid ∧ q.status = 0 ∧ q.poison = false ∧
        q.data = patchLine 0 (data.zipIdx.map fun e => (p.addr % 64 + e.2, e.1)) ∧ NMap.find? (t.ioAt io).tags tag = none ∧ t.dram = s.dram) ∧
      (∀ st ∈ [CplStatus.ur, .ca], linkUp s io k = true → ∃ t : State, exec (.completionReceived io tag st []) s = .next t ∧ Answered p 4 t ∧
        NMap.find? (t.ioAt io).tags tag = none ∧ t.dram = s.dram) ∧
      (∃ t : State, exec (.completionTimeout io tag) s = .next t ∧ Answered p 4 t ∧ NMap.find? (t.ioAt io).tags tag = some ⟨k, none⟩ ∧ t.dram = s.dram)) ∧
    (∀ tag k, NMap.find? (s.ioAt io).tags tag = some ⟨k, none⟩ → ∃ t : State, exec (.tagHoldExpiry io tag) s = .next t ∧
      NMap.find? (t.ioAt io).tags tag = none ∧ t.fab = s.fab ∧ t.crs = s.crs) ∧
    (∀ t : Tlp, PortTakes s io t →
      let va := t.addr.toNat
      let cpl := fun (st : CplStatus) (bs : List Byte) => (⟨t.link, .completion, t.rid.toNat, t.tag.toNat, t.addr, bs.length, bs, st, false⟩ : OutTlp)
      (∀ data, Uncounted s io 0 → t.len = data.length → data.length ≤ 512 → va / 4096 ≠ s.regF .IOTU_MSI 51 12 io → t.ep = false →
        (∀ u, dmaWrite io t.rid.toNat va data false s = .ok u → Settles u (exec (.inboundPostedWrite io t data) s)) ∧
        (s.regF .IOTU_ROOT 0 0 io = 0 → s.regF .IOTU_FAULT 63 63 io = 0 → ∃ x, exec (.inboundPostedWrite io t data) s = .next x ∧
          x.dram = s.dram ∧ x.regF .IOTU_FAULT 63 63 io = 1 ∧ x.regF .IOTU_FAULT 62 56 io = 0x40 ∧ x.reg .IOTU_RID io = t.rid.setWidth 64)) ∧
      (∀ (data : W32) e u, Uncounted s io 0 → t.len = 4 → va = s.regF .IOTU_MSI 51 12 io * 4096 → ctxEntry s io t.rid.toNat = .ok e →
        remapDeliver io e (data.toNat % 65536) (keepCtx io e s) = .ok u → Settles u (exec (.interruptMessage io t data) s)) ∧
      (∀ bs u, Uncounted s io 1 → t.len ≤ 4096 → dmaRead io t.rid.toNat va t.len s = .ok (bs, false, false, u) →
        Settles (u.modIo io fun x => { x with egress := x.egress ++ [cpl .sc bs] }) (exec (.inboundReadRequest io t) s)) ∧
      (∀ op operand compare bs u w, Uncounted s io 1 → atomSize op t = true → dmaRead io t.rid.toNat va t.len s = .ok (bs, false, false, u) →
        dmaWrite io t.rid.toNat va (leBytes t.len (tlpAtom op t.len (leNat bs) operand.toNat compare.toNat)) false u = .ok w → linkUp w io t.link = true →
        Settles (w.modIo io fun x => { x with egress := x.egress ++ [cpl .sc bs] }) (exec (.inboundAtomic io t op operand compare) s)))

/-- The PCIe endpoint. -/
def Obligations.EndpointFunctions : Prop :=
  ∀ (s : State),
    (∀ r (act : Bool), (isF r = true ∨ r = .cx 0) → s.regF .EP_CTL 16 16 0 ≠ act.toNat →
      (allQuiet s = true → Writesto s (exec (.epActiveChange r act) s) fun t => t.regF .EP_CTL 16 16 0 = act.toNat) ∧
      (allQuiet s = false → Writesto s (exec (.epActiveChange r act) s) fun t => t.regF .EP_CTL 32 32 0 = 1 ∧
        t.regF .EP_CTL 16 16 0 = s.regF .EP_CTL 16 16 0)) ∧
    (∀ r vf v, isHF r = true → vf ≠ 0 → vf ≤ 1024 →
      ((s.fnAt vf).mse = false →
        Settles (s.setReg .EP_VF0 (RegName.EP_VF0.merge (s.reg .EP_VF0 0 vf) v) 0 vf) (exec (.epVfWrite r vf false v) s) ∧
        Settles (s.setReg .EP_VF1 (RegName.EP_VF1.merge (s.reg .EP_VF1 0 vf) v) 0 vf) (exec (.epVfWrite r vf true v) s)) ∧
      (∀ b, (s.fnAt vf).mse = true → Settles (s.setRegF .EP_CTL 32 32 1 0) (exec (.epVfWrite r vf b v) s))) ∧
    (∀ vf, VfReady s vf →
      let q := s.regF .EP_VF0 41 32 0 vf
      (∀ v, queueLive s q = true → Settles (s.modQueue q fun x => { x with reading := true }) (exec (.vfDoorbellWrite vf 0 v) s)) ∧
      (∀ v, swHalted s = false → Settles (releaseHandle q v s) (exec (.vfDoorbellWrite vf 8 v) s)) ∧
      (∀ (off : BitVec 12) data, off.toNat + data.length ≤ 0x400 →
        Settles (poke (s.regF .EP_VF1 51 11 0 vf * 2048 + off.toNat) 0 data s) (exec (.mailboxSlotWrite vf off data) s)) ∧
      (∀ v : W64, v.toNat < 16 → ∃ t : State, exec (.mbDbWrite vf v) s = .next t ∧ t.regF .EP_MBOX (32 + v.toNat) (32 + v.toNat) 0 vf = 1 ∧ t.dram = s.dram) ∧
      (∃ t : State, exec (.mbPendRead vf) s = .next t ∧ t.regF .EP_MBOX 31 16 0 vf = 0 ∧
        Leaves (activeEp s) [⟨0, .completion, vf, 0, 0x1808, 8, leBytes 8 (s.regF .EP_MBOX 31 16 0 vf), .sc, false⟩] s t ∧ t.dram = s.dram)) ∧
    (∀ r io ring v, io < 2 → ring < 256 →
      (isHF r = true → Settles (s.setReg .EP_RTAIL (RegName.EP_RTAIL.merge (s.reg .EP_RTAIL io ring) v) io ring) (exec (.epRtailWrite r io ring v) s)) ∧
      (isHF r = false → Writesto s (exec (.epRtailWrite r io ring v) s) fun t => t.reg .EP_RTAIL io ring = s.reg .EP_RTAIL io ring)) ∧
    (∀ io ring h, io < 2 → ring < 256 → activeEp s = io → epUp s = true → finishing s = false → bit (s.reg .EP_RCFG io ring) 63 = true →
      s.reg .EP_RTAIL io ring ≠ s.reg .EP_RHEAD io ring →
      let fn := s.regF .EP_RCFG 10 0 io ring
      let ctx := s.regF .EP_RCFG 31 16 io ring
      let head := s.regF .EP_RHEAD 31 0 io ring
      let at_ := (s.reg .EP_RBASE io ring).toNat + head % 2 ^ min 16 (s.regF .EP_RCFG 57 48 io ring) * 32
      ((s.fnAt fn).flr = true → ∃ t : State, exec (.ringDescriptor io ring h) s = .next t ∧ t.regF .EP_RCFG 63 63 io ring = 0 ∧
        t.reg .EP_RSTAT io ring = w64 (2 ^ 63 + 5) ∧ t.dram = s.dram) ∧
      (FnReady s fn → (s.fnAt fn).bme = false → ∃ t : State, exec (.ringDescriptor io ring h) s = .next t ∧ t.regF .EP_RCFG 63 63 io ring = 0 ∧
        t.reg .EP_RSTAT io ring = w64 (2 ^ 63 + 4) ∧ t.dram = s.dram) ∧
      (∀ bs u, FnReady s fn → (s.fnAt fn).bme = true → dmaRead io ctx at_ 32 s = .ok (bs, false, false, u) →
        let w := fun i => w64 (leNat ((bs.drop (8 * i)).take 8))
        let len := fld (w 0) 63 32
        0 < len → len ≤ 4194304 → bit (w 0) 8 = false →
        (∀ d x, fld (w 0) 7 0 = 1 → h ≠ .error → dmaRead io ctx (w 2).toNat len u = .ok (d, false, false, x) →
          ∃ t : State, exec (.ringDescriptor io ring h) s = .next t ∧ t.regF .EP_RHEAD 31 0 io ring = (head + 1) % 2 ^ 32 ∧
            Leaves io ((List.range ((d.length + 511) / 512)).map fun i => (⟨0, .memWrite, fn, 0, w 1 + w64 (512 * i),
              ((d.drop (512 * i)).take 512).length, (d.drop (512 * i)).take 512, .sc, false⟩ : OutTlp)) s t) ∧
        (∀ d x, fld (w 0) 7 0 = 2 → h = .data d → d.length = len → dmaWrite io ctx (w 2).toNat d false u = .ok x →
          Settles (x.setRegF .EP_RHEAD 31 0 ((x.regF .EP_RHEAD 31 0 io ring + 1) % 2 ^ 32) io ring) (exec (.ringDescriptor io ring h) s)))) ∧
    (∀ r io vf v, io < 2 → vf ≠ 0 → vf ≤ 1024 →
      (bit v 0 = true → ∃ t : State, exec (.epMboxSend r io vf v) s = .next t ∧ Raised vf 0 s t ∧
        t.regF .EP_MBOX 31 16 0 vf = s.regF .EP_MBOX 31 16 0 vf ||| fld v 31 16) ∧
      (bit v 0 = false → Writesto s (exec (.epMboxSend r io vf v) s) fun t => t.regF .EP_MBOX 31 16 0 vf = fld v 31 16 ∧
        t.regF .EP_MBOX 63 32 0 vf = fld (s.reg .EP_MBOX 0 vf &&& ~~~v) 63 32)) ∧
    (∀ r io v, io < 2 → isHF r = true → fld v 42 32 ≤ 1024 → fld v 10 0 < fnVectors (fld v 42 32) →
      ∃ t : State, exec (.epSend r io v) s = .next t ∧ Raised (fld v 42 32) (fld v 10 0) s t ∧ t.dram = s.dram) ∧
    (∀ fn, FnReady s fn →
      (∀ v, v < fnVectors fn → ∃ t : State, exec (.msixUnmask fn (some v)) s = .next t ∧ (t.fnAt fn).mask.getLsbD v = false ∧
        ((s.fnAt fn).msix = true → (s.fnAt fn).bme = true → (s.fnAt fn).fmask = false → (t.fnAt fn).pend.getLsbD v = false)) ∧
      (∃ t : State, exec (.msixUnmask fn none) s = .next t ∧ (t.fnAt fn).fmask = false ∧ (t.fnAt fn).mask = (s.fnAt fn).mask) ∧
      Settles (s.modFn fn fun f => { f with bme := false }) (exec (.bmeClear fn) s) ∧
      (∃ t : State, exec (.bmeSet fn) s = .next t ∧ (t.fnAt fn).bme = true ∧ t.dram = s.dram) ∧
      (∀ v : Bool, (∃ t : State, exec (.configurationRequest fn .memorySpaceEnable v) s = .next t ∧ (t.fnAt fn).mse = v ∧
        Leaves (activeEp s) [⟨0, .completion, fn, 0, 0, 0, [], .sc, false⟩] s t ∧ t.dram = s.dram)) ∧
      (fn ≠ 0 → ∃ t : State, exec (.flrVf fn) s = .next t ∧ (t.fnAt fn).flr = true ∧ (t.fnAt fn).bme = false ∧
        ∀ io < 2, ∀ ring < 256, s.regF .EP_RCFG 63 63 io ring = 1 → s.regF .EP_RCFG 10 0 io ring = fn →
          t.regF .EP_RCFG 63 63 io ring = 0 ∧ t.reg .EP_RSTAT io ring = w64 (2 ^ 63 + 5))) ∧
    (epUp s = true → ∃ t : State, exec .flrPf s = .next t ∧ (∀ fn ≤ totalVfs s, (t.fnAt fn).flr = true) ∧ (t.fnAt 0).vfe = false ∧ t.dram = s.dram) ∧
    (∀ fn, epUp s = true → fnPresent s fn = false → ∀ w v, ∃ t : State, exec (.configurationRequest fn w v) s = .next t ∧
      Leaves (activeEp s) [⟨0, .completion, fn, 0, 0, 0, [], .ur, false⟩] s t ∧ t.io.fns = s.io.fns) ∧
    (∀ fn, fn ≤ 1024 → (s.fnAt fn).flr = true → (s.fnAt fn).flrAgain = false → (s.ioAt (activeEp s)).perstIn = true →
      ∃ t : State, exec (.flrComplete fn) s = .next t ∧ t.fnAt fn = EpFn.cold ∧ t.regF .EP_FLR_PEND (fn % 64) (fn % 64) 0 (fn / 64) = 1 ∧
        t.reg .EP_MBOX 0 fn = 0 ∧ t.dram = s.dram) ∧
    (∀ io, io < 2 → persOf s io = 4 → (s.ioAt io).perstIn = true → ∃ t : State, exec (.perstNInput io false) s = .next t ∧
      (t.ioAt io).perstIn = false ∧ t.regF .IO_RST 1 1 io = 1 ∧ (∀ k < 4, linkUp t io k = false) ∧ (t.fnAt 0).flr = true ∧ t.dram = s.dram) ∧
    (∀ io, io < 2 → persOf s io = 4 → (s.ioAt io).perstIn = false → ∃ t : State, exec (.perstNInput io true) s = .next t ∧
      (t.ioAt io).perstIn = true ∧ t.regF .IO_RST 1 1 io = 0 ∧ t.dram = s.dram)


/-! ## Errors, security, Erg and debug (chapters 14, 16 and 17) -/

namespace Sys2Proof.Claims

/-- The entry at the head of the boot flash's log is the one given, with the log's next number (Table 14-12). -/
def Logged (kind : Nat) (status addr misc : W64) (us : Nat) (s t : State) : Prop :=
  flashBytes t (ringBase + 64 * s.boot.logPos) 64 =
    (LogEntry.mk kind s.boot.logSeq (w64 (s.boot.colds % 2 ^ 16 * 2 ^ 48 + us % 2 ^ 48)) status addr misc).bytes

/-- An alarm with these sources does not reset the part. -/
def MildAlarm (s : State) (m : Nat) : Prop := withAction s m 3 = [] ∨ finishing s = true

/-- A message of a kind waits in the lane of a stop. -/
def LaneHolds (s : State) (stop kind : Nat) (arg : Option Nat) (m : Nat × Nat × Nat) : Prop :=
  (s.fab.lane.find? fun x => x.1 == stop && x.2.1 == kind && (arg.isNone || arg == some x.2.2)) = some m

/-- A frame of the debug port with a right CRC (Table 17-8). -/
def DebugFrame (s : State) (f : List Byte) : Prop :=
  s.pins.dbgPresentN = false ∧ s.power.off = false ∧ f.length = 18 ∧ crc32c (f.take 14) = leNat (f.drop 14)

end Sys2Proof.Claims

/-- Errors, alarms, debug tokens and random numbers. -/
def Obligations.ErrorsAndSecurity : Prop :=
  ∀ (s : State),
    (∀ k e slot, k < 4 → e.secret = false → e.cls ≠ .fatal → takeInj s (.sv k) e = (e, s) → placeRecord s (.sv k) e = .take slot →
      ∃ t : State, exec (.errorRecord (.sv k) e) s = .next t ∧ t.reg .ERR_STATUS (bankBase (.sv k)) slot = statusWord (.sv k) e false ∧
        t.reg .ERR_ADDR (bankBase (.sv k)) slot = e.addr.getD 0 ∧ t.reg .ERR_MISC (bankBase (.sv k)) slot = e.misc.getD 0 ∧
        t.reg .ERR_TIME (bankBase (.sv k)) slot = w64 (s.timeUs % 2 ^ 48) ∧ OnlyRegs s t ∧
        (bit (s.reg .ERR_CTL (bankBase (.sv k))) (classNum e.cls) = true →
          (t.pair 2).pend.getLsbD (match e.cls with | .fatal => 0 | .corrected => 2 | _ => 1) = true)) ∧
    (∀ x, inServiceNow s x = true →
      (bit (s.reg .CXS_CTL 2) 0 = true → ∃ t : State, exec (.resourceOutOfService (.cx 0) x) s = .next t ∧ inServiceNow t x = false ∧ t.boot = s.boot) ∧
      (bit (s.reg .CXS_CTL 2) 0 = false → s.boot.logPos % sectorSize ≠ 0 → ∃ t : State, exec (.resourceOutOfService (.cx 2) x) s = .next t ∧
        inServiceNow t x = false ∧ Logged 1 (resourceWord x) 0 0 s.timeUs s t) ∧
      (∀ r, r ≠ .cx 0 → r ≠ .cx 2 → Settles s (exec (.resourceOutOfService r x) s))) ∧
    (∀ k slot, k < 4 → slot < 4 → pairAlive s 2 = true →
      let b := bankBase (.sv k)
      let w := s.reg .ERR_STATUS b slot
      bit w 63 = true → bit (s.reg .ERR_CTL b) (fld w 61 60) = true →
      (fld w 61 60 = 0 → ∃ t : State, exec (.rasRecordService (.sv k) slot) s = .next t ∧ t.regF .ERR_STATUS 63 63 b slot = 0 ∧
        t.ras.gathered = s.ras.gathered ++ [[w, s.reg .ERR_ADDR b slot, s.reg .ERR_MISC b slot, s.reg .ERR_TIME b slot]]) ∧
      (fld w 61 60 = 1 → s.boot.logPos % sectorSize ≠ 0 → ∃ t : State, exec (.rasRecordService (.sv k) slot) s = .next t ∧
        t.regF .ERR_STATUS 63 63 b slot = 0 ∧
        Logged 0 w (s.reg .ERR_ADDR b slot) (s.reg .ERR_MISC b slot) (s.reg .ERR_TIME b slot).toNat s t) ∧
      (fld w 61 60 = 3 → s.regF .RAS_CFG 1 0 = 0 → finishing s = false → ∃ t : State, exec (.rasRecordService (.sv k) slot) s = .next t ∧ AtRest t)) ∧
    (pairAlive s 2 = true → ∃ t : State, exec .correctedLogFlush s = .next t ∧ t.ras.gathered = [] ∧ t.dram = s.dram ∧
      ∀ w a m x, s.ras.gathered = [[w, a, m, x]] → s.boot.logPos % sectorSize ≠ 0 → Logged 0 w a m x.toNat s t) ∧
    (∀ r b v, bankThere b = true →
      (¬(isF r = true ∨ r = .cx 0 ∨ r = .cx 2) → Writesto s (exec (.errInjArm r b v) s) fun t => b ≠ .fabric 0x02 →
        t.reg .ERR_INJ (bankBase b) = s.reg .ERR_INJ (bankBase b)) ∧
      ((isF r = true ∨ r = .cx 0 ∨ r = .cx 2) → s.regF .SEC_INJ_EN 0 0 = 0 → Settles s (exec (.errInjArm r b v) s)) ∧
      ((isF r = true ∨ r = .cx 0 ∨ r = .cx 2) → s.regF .SEC_INJ_EN 0 0 = 1 → bit (RegName.ERR_INJ.merge (s.reg .ERR_INJ (bankBase b)) v) 0 = false →
        Settles (s.setReg .ERR_INJ (RegName.ERR_INJ.merge (s.reg .ERR_INJ (bankBase b)) v) (bankBase b)) (exec (.errInjArm r b v) s))) ∧
    (∀ m : Byte, m ≠ 0 →
      (MildAlarm s m.toNat → ∃ t : State, exec (.securityAlarm m) s = .next t ∧ t.pins.alarmN = false ∧
        t.regF .SEC_ALM_STATUS 7 0 = s.regF .SEC_ALM_STATUS 7 0 ||| m.toNat ∧
        (s.regF .SEC_ALM_LOG 55 48 = 0 → t.regF .SEC_ALM_LOG 63 56 = lowestSource m.toNat ∧ t.regF .SEC_ALM_LOG 55 48 = 1 ∧
          t.regF .SEC_ALM_LOG 47 0 = s.timeUs % 2 ^ 48) ∧
        (withAction s m.toNat 1 ≠ [] → t.regF .KEY_EPOCH 8 8 = 1) ∧
        (withAction s m.toNat 2 ≠ [] → t.sec.epochFlag = true) ∧ t.dram = s.dram) ∧
      (withAction s m.toNat 3 ≠ [] → finishing s = false → ∃ t : State, exec (.securityAlarm m) s = .next t ∧ AtRest t ∧ t.pins.alarmN = false)) ∧
    (∀ mc m, mc < 16 → LaneHolds s (mcStop mc) 1 none m → ∃ t : State, exec (.alarmMessage mc) s = .next t ∧ t.fab.lane = s.fab.lane.erase m ∧
      (∀ slot < 4096, slot ≠ 0 → keySlot t mc slot = .erased) ∧ t.dram = s.dram) ∧
    (∀ r, ¬(isF r = true ∨ r = .debug) → Settles s (exec (.debugTokenSubmit r) s)) ∧
    (∀ r, (isF r = true ∨ r = .debug) → pairAlive s 0 = true →
      (tokenOk s = true → ∃ t : State, exec (.debugTokenSubmit r) s = .next t ∧ (∀ k < 32, t.reg .SEC_DBG_TOK 0 k = 0) ∧
        (∀ k < 4, t.reg .SEC_DBG_NONCE 0 k = Config.free64 (s.free + k)) ∧ t.sec.calls = s.sec.calls + 4 ∧
        t.regF .SEC_DBG_EN 2 2 = fld (s.reg .SEC_DBG_TOK 0 0) 32 32 ∧ t.regF .SEC_DBG_EN 3 3 = fld (s.reg .SEC_DBG_TOK 0 0) 33 33 ∧
        t.regF .SEC_DBG_EN 31 16 = fld (s.reg .SEC_DBG_TOK 0 0) 31 16) ∧
      (tokenOk s = false → MildAlarm s 0x10 → ∃ t : State, exec (.debugTokenSubmit r) s = .next t ∧ t.reg .SEC_DBG_EN = s.reg .SEC_DBG_EN ∧
        t.pins.alarmN = false ∧ bit (t.reg .SEC_ALM_STATUS) 4 = true)) ∧
    (∀ r, takePacket (trngPacket r) s = none →
      (trngReader r = true → s.regF .TRNG_STATUS 1 0 = 1 →
        Settles { s with free := s.free + 1, sec := { s.sec with calls := s.sec.calls + 1 } } (exec (.trngOutRead r) s)) ∧
      (trngReader r = true → s.regF .TRNG_STATUS 1 0 ≠ 1 → Settles s (exec (.trngOutRead r) s)) ∧
      (trngReader r = false → Writesto s (exec (.trngOutRead r) s) fun _ => True)) ∧
    (∀ rct : Bool, s.regF .TRNG_STATUS 1 0 ≠ 2 → (recentFailures s).length < 2 ∨ MildAlarm s 0x80 →
      ∃ t : State, exec (.trngHealthFailure rct) s = .next t ∧ t.regF .TRNG_STATUS 1 0 = 2 ∧ t.sec.failures = recentFailures s ++ [s.timeUs] ∧
        (t.pair 0).pend.getLsbD 4 = true ∧ (2 ≤ (recentFailures s).length → bit (t.reg .SEC_ALM_STATUS) 7 = true)) ∧
    (s.regF .TRNG_STATUS 1 0 = 2 → ∃ t : State, exec .trngRecoveryComplete s = .next t ∧ t.regF .TRNG_STATUS 1 0 = 1 ∧ t.sec.calls = 0 ∧
      t.sec.seededUs = s.timeUs ∧ (s.regF .TRNG_STATUS 63 48 < 0xFFFF → t.regF .TRNG_STATUS 63 48 = s.regF .TRNG_STATUS 63 48 + 1)) ∧
    (s.regF .TRNG_STATUS 1 0 = 1 → (65536 ≤ s.sec.calls ∨ s.sec.seededUs + 10000 ≤ s.timeUs) → ∃ t : State, exec .drbgReseed s = .next t ∧
      t.sec.calls = 0 ∧ t.sec.seededUs = s.timeUs ∧ (s.regF .TRNG_STATUS 63 48 < 0xFFFF → t.regF .TRNG_STATUS 63 48 = s.regF .TRNG_STATUS 63 48 + 1))

/-- Counters, samples, freeze and snapshot; frames and halts of the debug port. -/
def Obligations.ErgAndDebug : Prop :=
  ∀ (s : State),
    (∀ n c, n < 144 → c < 8 → (s.core n).ergStopped = false → (s.core n).run = .running → ∃ t : State, exec (.counterOverflow (.core n) c) s = .next t ∧
      bit ((t.core n).erg 0x42) c = true ∧ fld ((t.core n).erg (0x50 + c)) 47 0 < 8 ∧ (t.core n).g = (s.core n).g ∧ t.dram = s.dram) ∧
    (∀ p, (stopKind p).isSome = true → p ∉ s.frozen → Settles (s.setReg .PRB_CNT 0 p) (exec (.counterOverflow (.probe p) 0) s)) ∧
    (∀ n r rest, n < 144 → (s.core n).smp.recs = r :: rest → bit ((s.core n).erg 0x60) 56 = true → bit ((s.core n).erg 0x64) 63 = false →
      ringHeld (s.core n) ≠ ringRecords (s.core n) →
      let head := ((s.core n).erg 0x62).toNat
      let N := ringRecords (s.core n)
      let pa := fld ((s.core n).erg 0x61) 51 12 * 4096 / (64 * N) * (64 * N) + 64 * (head % N)
      (∀ f, ownership s (coreStop n) none pa 12 pa 0 = .error f →
        Settles (s.setCore n ((s.core n).setErg 0x64 (setBit ((s.core n).erg 0x64) 63 true))) (exec (.sampleRingWrite n) s)) ∧
      (∀ x, ownership s (coreStop n) none pa 12 pa 0 = .ok x → ∃ t : State, exec (.sampleRingWrite n) s = .next t ∧ (t.core n).smp.recs = rest ∧
        (t.core n).erg 0x62 = w64 ((head + 1) % 2 ^ 32))) ∧
    (∀ n (rd : RegNo), coreReady s n = true → let c := s.core n
      sysFault c (levelNum c.level) 0x77 false = none →
      ∃ t : State, exec (.sampleRecordRead n rd) s = .next t ∧ (t.core n).getG rd.toNat = (if rd = 0 then 0 else sysRead c n (levelNum c.level) 0x77) ∧
        (t.core n).pc = c.pc + 4 ∧ t.dram = s.dram) ∧
    (∀ r, gctlWriter r = false → Settles s (exec (.ergFreeze r) s) ∧ Settles s (exec (.ergRelease r) s) ∧ Settles s (exec (.ergSnapshot r) s)) ∧
    (∀ r, gctlWriter r = true →
      (s.regF .ERG_GCTL 63 63 = 1 → ∀ e ∈ [(Instr.ergFreeze r, 1), (.ergRelease r, 2), (.ergSnapshot r, 3)],
        Settles { s with gctl := s.gctl ++ [e.2] } (exec e.1 s)) ∧
      (s.regF .ERG_GCTL 63 63 = 0 →
        let tag := (s.regF .ERG_GCTL 51 48 + 1) % 16
        ∀ e ∈ [(Instr.ergFreeze r, 2, 0), (.ergRelease r, 4, 0), (.ergSnapshot r, 3, tag)], ∃ t : State, exec e.1 s = .next t ∧
          t.fab.lane = s.fab.lane ++ allStops.map (fun p => (p, e.2.1, e.2.2)) ∧ t.regF .ERG_GCTL 63 63 = 1 ∧
          t.regF .ERG_GCTL 62 62 = (if e.2.1 = 2 then 1 else 0) ∧ (e.2.1 = 3 → t.regF .ERG_GCTL 51 48 = tag) ∧ t.dram = s.dram)) ∧
    (s.regF .ERG_GCTL 63 63 = 1 →
      (s.gctl = [] → Settles (s.setRegF .ERG_GCTL 63 63 0) (exec .ergGctlBusyEnd s)) ∧
      (∀ op rest, s.gctl = op :: rest → op ∈ [1, 2, 3] → ∃ t : State, exec .ergGctlBusyEnd s = .next t ∧ t.gctl = rest ∧ t.regF .ERG_GCTL 63 63 = 1)) ∧
    (∀ n kind tag : BitVec 4, n.toNat < 12 → persOf s n.toNat = 3 → linkUp s n.toNat 0 = true → bit (s.reg .IO_SL n.toNat) 3 = true →
      kind ∈ [2, 3, 4] → ∃ t : State, exec (.freezeAndSnapshotForwarding kind tag) s = .next t ∧
        t.fab.lane = s.fab.lane ++ allStops.map (fun p => (p, kind.toNat, if kind = 3 then tag.toNat else 0)) ∧ t.dram = s.dram) ∧
    (∀ stop m, s.regF .NI_PORT 2 0 stop = 0 →
      (LaneHolds s stop 2 none m → ∃ t : State, exec (.freezeMessage stop) s = .next t ∧ t.fab.lane = s.fab.lane.erase m ∧ stop ∈ t.frozen ∧
        ∀ n < 144, coreStop n = stop → (s.core n).run = .running → bit ((t.core n).erg 0x41) 0 = true) ∧
      (LaneHolds s stop 4 none m → ∃ t : State, exec (.releaseMessage stop) s = .next t ∧ t.fab.lane = s.fab.lane.erase m ∧ stop ∉ t.frozen ∧
        ∀ n < 144, coreStop n = stop → (s.core n).run = .running → bit ((t.core n).erg 0x41) 0 = false) ∧
      (∀ tag : BitVec 4, LaneHolds s stop 3 (some tag.toNat) m → ∃ t : State, exec (.snapshotMessage stop tag) s = .next t ∧
        t.fab.lane = s.fab.lane.erase m ∧ t.reg .PRB_SHD stop = s.reg .PRB_CNT stop ∧ t.reg .PRB_SHTAG stop = w64 (16 + tag.toNat) ∧
        (∀ n < 144, coreStop n = stop → (s.core n).run = .running → (t.core n).erg 0x43 = (s.core n).erg 0x40 ∧
          (t.core n).erg 0x44 = w64 (16 + tag.toNat) ∧ ∀ i < 8, (t.core n).erg (0x58 + i) = (s.core n).erg (0x50 + i)) ∧
        (∀ k < 72, tileStop k = stop → ∀ i < 4, t.reg .UNC_SHD (uncBase (.tile k)) i = s.reg .UNC_CNT (uncBase (.tile k)) i))) ∧
    (∀ high, Settles { s with pins := { s.pins with dbgPresentN := high } } (exec (.dbgPresentNChange high) s)) ∧
    (∀ n, n < 144 → (s.core n).run = .running → s.pins.dbgPresentN = false →
      (invasive s (s.core n) = true → Settles (s.setCore n { s.core n with run := .debugHalt }) (exec (.debugHaltRequest n) s)) ∧
      (invasive s (s.core n) = false → Settles (s.setCore n { s.core n with haltReq := true }) (exec (.debugHaltRequest n) s))) ∧
    (∀ f, s.pins.dbgPresentN = false → s.power.off = false → f.length = 18 → crc32c (f.take 14) ≠ leNat (f.drop 14) →
      Settles (debugAnswer 8 0 s) (exec (.debugRegrd f) s) ∧ Settles (debugAnswer 8 0 s) (exec (.debugRegwr f) s)) ∧
    (∀ f, DebugFrame s f →
      let off := leNat ((f.drop 2).take 4) / 8 * 8
      let stop := off >>> 24
      domainUp s 1 = true → (stopKind stop).isSome = true → s.regF .NI_RT 1 0 0x02 stop ≠ 3 → inNi off = false → s.regF .NI_PORT 2 0 stop = 0 →
      (f.getD 0 0 = 1 → off ≠ trngOut → Settles (debugAnswer 0 (readAt .debug off s).1 (readAt .debug off s).2) (exec (.debugRegrd f) s)) ∧
      (f.getD 0 0 = 2 → Settles (debugAnswer 0 0 (writeAt .debug off (w64 (leNat ((f.drop 6).take 8))) (f.getD 1 0) s)) (exec (.debugRegwr f) s)))


/-! ## Every step -/

namespace Sys2Proof.Claims

/-- Interrupt input 62 of CX3 shows CX3_MBDB bit 0. -/
def DoorbellShown (s : State) : Prop := (s.pair 3).pend.getLsbD 62 = (s.reg .CX3_MBDB).getLsbD 0

end Sys2Proof.Claims

/-- No command stops the machine, none touches the queue behind it, and the level input of CX3 follows its register through all of
them. -/
def Obligations.StepKeepsDoorbell : Prop :=
  ∀ s : State, Claims.DoorbellShown s → ∃ t : State, step s = .next t ∧ t.pending = s.pending.tail ∧ Claims.DoorbellShown t

/-- The state after reset. What is not listed reads as log entries 3 and 4 say. -/
def Obligations.ResetState : Prop :=
  Claims.DoorbellShown State.reset ∧ Memory.wf State.reset.dram = true ∧ State.reset.pending = [] ∧ State.reset.crs = [] ∧
    (∀ n, (State.reset.core n).run = .held) ∧ pairAlive State.reset 0 = true ∧ (∀ k ∈ [1, 2, 3], pairAlive State.reset k = false) ∧
    (State.reset.pair 0).pc = (Pair.start 0).pc ∧ State.reset.lines = [] ∧ State.reset.fab.net = []
end

