-- ==== Sys2Proof/Laws/Map.lean ====
section
/-! SUPPORT. Reading after writing in a sparse table, and its canonical form. -/

namespace Sys2Proof.Machine.NMap

variable {α : Type}

@[simp] theorem find?_nil (k : Nat) : find? ([] : NMap α) k = none := rfl

theorem find?_put_same (m : NMap α) (k : Nat) (v : α) : find? (put m k v) k = some v := by
  induction m with
  | nil => simp [put, find?]
  | cons e m ih =>
    obtain ⟨a, x⟩ := e
    simp only [put]
    split
    · simp [find?]
    · split
      · simp [find?]
      · next h _ => simp [find?, h, ih]

theorem find?_put_ne (m : NMap α) {k q : Nat} (v : α) (h : q ≠ k) : find? (put m k v) q = find? m q := by
  induction m with
  | nil => simp [put, find?, h]
  | cons e m ih =>
    obtain ⟨a, x⟩ := e
    simp only [put]
    split
    · next h' => subst h'; simp [find?, h]
    · split
      · simp [find?, h]
      · simp [find?, ih]

theorem find?_erase_same (m : NMap α) (k : Nat) : find? (erase m k) k = none := by
  induction m with
  | nil => rfl
  | cons e m ih =>
    obtain ⟨a, x⟩ := e
    by_cases h : a = k
    · subst h; simpa [erase] using ih
    · have h' : ¬ k = a := fun x => h x.symm
      simpa [erase, h, find?, h'] using ih

theorem find?_erase_ne (m : NMap α) {k q : Nat} (h : q ≠ k) : find? (erase m k) q = find? m q := by
  induction m with
  | nil => rfl
  | cons e m ih =>
    obtain ⟨a, x⟩ := e
    by_cases h' : a = k
    · subst h'; simp [erase, find?, h]; simpa [erase] using ih
    · simp only [erase, List.filter_cons, ne_eq, h', not_false_eq_true, decide_true, ↓reduceIte, find?]
      split
      · rfl
      · simpa [erase] using ih

variable [DecidableEq α]

@[simp] theorem get_set_same (d : α) (m : NMap α) (k : Nat) (v : α) : get d (set d m k v) k = v := by
  unfold set get
  split
  · next h => simp [find?_erase_same, h]
  · simp [find?_put_same]

theorem find?_set_ne (d : α) (m : NMap α) {k q : Nat} (v : α) (h : q ≠ k) : find? (set d m k v) q = find? m q := by
  unfold set
  split
  · rw [find?_erase_ne m h]
  · rw [find?_put_ne m v h]

/-- As `get_set_ne`, where the default depends on the key. -/
theorem get_set_ne' (d d' : α) (m : NMap α) {k q : Nat} (v : α) (h : q ≠ k) : get d' (set d m k v) q = get d' m q := by
  unfold get
  rw [find?_set_ne d m v h]

theorem get_set_ne (d : α) (m : NMap α) {k q : Nat} (v : α) (h : q ≠ k) : get d (set d m k v) q = get d m q := by
  unfold set get
  split
  · rw [find?_erase_ne m h]
  · rw [find?_put_ne m v h]

theorem get_set (d : α) (m : NMap α) (k q : Nat) (v : α) : get d (set d m k v) q = if q = k then v else get d m q := by
  split
  · next h => subst h; simp
  · next h => exact get_set_ne d m v h

/-! ## The canonical form -/

omit [DecidableEq α] in
theorem lt_of_above (m : NMap α) : ∀ k, above k m = true → sorted m = true → ∀ e ∈ m, k < e.1 := by
  induction m with
  | nil => simp
  | cons e m ih =>
    obtain ⟨a, x⟩ := e
    intro k hk hs e he
    simp only [above, decide_eq_true_eq] at hk
    simp only [sorted, Bool.and_eq_true] at hs
    rcases List.mem_cons.mp he with rfl | he
    · exact hk
    · exact Nat.lt_trans hk (ih a hs.1 hs.2 e he)

omit [DecidableEq α] in
theorem sorted_iff (m : NMap α) : sorted m = true ↔ m.Pairwise fun x y => x.1 < y.1 := by
  induction m with
  | nil => simp [sorted]
  | cons e m ih =>
    obtain ⟨a, x⟩ := e
    simp only [sorted, Bool.and_eq_true, List.pairwise_cons]
    constructor
    · intro h; exact ⟨lt_of_above m a h.1 h.2, ih.mp h.2⟩
    · intro h
      refine ⟨?_, ih.mpr h.2⟩
      cases m with
      | nil => rfl
      | cons e' m' => simpa [above] using h.1 e' (by simp)

omit [DecidableEq α] in
theorem mem_put (m : NMap α) (k : Nat) (v : α) : ∀ e ∈ put m k v, e = (k, v) ∨ e ∈ m := by
  induction m with
  | nil => simp [put]
  | cons e' m ih =>
    obtain ⟨a, x⟩ := e'
    intro e he
    simp only [put] at he
    split at he
    · rcases List.mem_cons.mp he with h | h <;> simp [h]
    · split at he
      · rcases List.mem_cons.mp he with h | h
        · simp [h]
        · exact .inr h
      · rcases List.mem_cons.mp he with h | h
        · simp [h]
        · rcases ih e h with h | h <;> simp [h]

omit [DecidableEq α] in
theorem sorted_put (m : NMap α) (k : Nat) (v : α) (h : sorted m = true) : sorted (put m k v) = true := by
  rw [sorted_iff] at h ⊢
  induction m with
  | nil => simp [put]
  | cons e m ih =>
    obtain ⟨a, x⟩ := e
    simp only [List.pairwise_cons] at h
    simp only [put]
    split
    · next h' => subst h'; simpa [List.pairwise_cons] using h
    · split
      · next hlt =>
        simp only [List.pairwise_cons]
        refine ⟨?_, h⟩
        intro e he
        rcases List.mem_cons.mp he with rfl | he
        · exact hlt
        · exact Nat.lt_trans hlt (h.1 e he)
      · next h1 h2 =>
        simp only [List.pairwise_cons]
        refine ⟨?_, ih h.2⟩
        intro e he
        rcases mem_put m k v e he with rfl | he
        · show a < k; omega
        · exact h.1 e he

theorem wf_set (d : α) (m : NMap α) (k : Nat) (v : α) (h : wf d m = true) : wf d (set d m k v) = true := by
  simp only [wf, Bool.and_eq_true, List.all_eq_true, decide_eq_true_eq] at h ⊢
  unfold set
  split
  · refine ⟨?_, fun e he => h.2 e ((List.mem_filter.mp he).1)⟩
    rw [sorted_iff] at *
    exact h.1.filter _
  · next hv =>
    refine ⟨sorted_put m k v h.1, fun e he => ?_⟩
    rcases mem_put m k v e he with rfl | he
    · exact hv
    · exact h.2 e he

@[simp] theorem wf_nil (d : α) : wf d ([] : NMap α) = true := rfl

end Sys2Proof.Machine.NMap
end

