-- ==== Sys2Proof/Laws/State.lean ====
section
/-! SUPPORT. What each update of a State leaves as it was, field by field, and what a unit reads as after it is written. -/

namespace Sys2Proof.Machine.State

variable (s : State)

/-! ## setCore -/

@[simp] theorem setCore_pending (n : Nat) (c : Core) : (s.setCore n c).pending = s.pending := rfl
@[simp] theorem setCore_crs (n : Nat) (c : Core) : (s.setCore n c).crs = s.crs := rfl
@[simp] theorem setCore_pairs (n : Nat) (c : Core) : (s.setCore n c).pairs = s.pairs := rfl
@[simp] theorem setCore_tcm (n : Nat) (c : Core) : (s.setCore n c).tcm = s.tcm := rfl
@[simp] theorem setCore_lines (n : Nat) (c : Core) : (s.setCore n c).lines = s.lines := rfl
@[simp] theorem setCore_dir (n : Nat) (c : Core) : (s.setCore n c).dir = s.dir := rfl
@[simp] theorem setCore_homes (n : Nat) (c : Core) : (s.setCore n c).homes = s.homes := rfl
@[simp] theorem setCore_dram (n : Nat) (c : Core) : (s.setCore n c).dram = s.dram := rfl
@[simp] theorem setCore_lmeta (n : Nat) (c : Core) : (s.setCore n c).lmeta = s.lmeta := rfl
@[simp] theorem setCore_mcs (n : Nat) (c : Core) : (s.setCore n c).mcs = s.mcs := rfl
@[simp] theorem setCore_keys (n : Nat) (c : Core) : (s.setCore n c).keys = s.keys := rfl
@[simp] theorem setCore_shadow (n : Nat) (c : Core) : (s.setCore n c).shadow = s.shadow := rfl
@[simp] theorem setCore_fab (n : Nat) (c : Core) : (s.setCore n c).fab = s.fab := rfl
@[simp] theorem setCore_sweep (n : Nat) (c : Core) : (s.setCore n c).sweep = s.sweep := rfl
@[simp] theorem setCore_io (n : Nat) (c : Core) : (s.setCore n c).io = s.io := rfl
@[simp] theorem setCore_fin (n : Nat) (c : Core) : (s.setCore n c).fin = s.fin := rfl
@[simp] theorem setCore_power (n : Nat) (c : Core) : (s.setCore n c).power = s.power := rfl
@[simp] theorem setCore_boot (n : Nat) (c : Core) : (s.setCore n c).boot = s.boot := rfl
@[simp] theorem setCore_ras (n : Nat) (c : Core) : (s.setCore n c).ras = s.ras := rfl
@[simp] theorem setCore_sec (n : Nat) (c : Core) : (s.setCore n c).sec = s.sec := rfl
@[simp] theorem setCore_pins (n : Nat) (c : Core) : (s.setCore n c).pins = s.pins := rfl
@[simp] theorem setCore_gctl (n : Nat) (c : Core) : (s.setCore n c).gctl = s.gctl := rfl
@[simp] theorem setCore_sealedRecs (n : Nat) (c : Core) : (s.setCore n c).sealedRecs = s.sealedRecs := rfl
@[simp] theorem setCore_frozen (n : Nat) (c : Core) : (s.setCore n c).frozen = s.frozen := rfl
@[simp] theorem setCore_timeUs (n : Nat) (c : Core) : (s.setCore n c).timeUs = s.timeUs := rfl
@[simp] theorem setCore_free (n : Nat) (c : Core) : (s.setCore n c).free = s.free := rfl

/-! ## modCore -/

@[simp] theorem modCore_pending (n : Nat) (f : Core → Core) : (s.modCore n f).pending = s.pending := rfl
@[simp] theorem modCore_crs (n : Nat) (f : Core → Core) : (s.modCore n f).crs = s.crs := rfl
@[simp] theorem modCore_pairs (n : Nat) (f : Core → Core) : (s.modCore n f).pairs = s.pairs := rfl
@[simp] theorem modCore_tcm (n : Nat) (f : Core → Core) : (s.modCore n f).tcm = s.tcm := rfl
@[simp] theorem modCore_lines (n : Nat) (f : Core → Core) : (s.modCore n f).lines = s.lines := rfl
@[simp] theorem modCore_dir (n : Nat) (f : Core → Core) : (s.modCore n f).dir = s.dir := rfl
@[simp] theorem modCore_homes (n : Nat) (f : Core → Core) : (s.modCore n f).homes = s.homes := rfl
@[simp] theorem modCore_dram (n : Nat) (f : Core → Core) : (s.modCore n f).dram = s.dram := rfl
@[simp] theorem modCore_lmeta (n : Nat) (f : Core → Core) : (s.modCore n f).lmeta = s.lmeta := rfl
@[simp] theorem modCore_mcs (n : Nat) (f : Core → Core) : (s.modCore n f).mcs = s.mcs := rfl
@[simp] theorem modCore_keys (n : Nat) (f : Core → Core) : (s.modCore n f).keys = s.keys := rfl
@[simp] theorem modCore_shadow (n : Nat) (f : Core → Core) : (s.modCore n f).shadow = s.shadow := rfl
@[simp] theorem modCore_fab (n : Nat) (f : Core → Core) : (s.modCore n f).fab = s.fab := rfl
@[simp] theorem modCore_sweep (n : Nat) (f : Core → Core) : (s.modCore n f).sweep = s.sweep := rfl
@[simp] theorem modCore_io (n : Nat) (f : Core → Core) : (s.modCore n f).io = s.io := rfl
@[simp] theorem modCore_fin (n : Nat) (f : Core → Core) : (s.modCore n f).fin = s.fin := rfl
@[simp] theorem modCore_power (n : Nat) (f : Core → Core) : (s.modCore n f).power = s.power := rfl
@[simp] theorem modCore_boot (n : Nat) (f : Core → Core) : (s.modCore n f).boot = s.boot := rfl
@[simp] theorem modCore_ras (n : Nat) (f : Core → Core) : (s.modCore n f).ras = s.ras := rfl
@[simp] theorem modCore_sec (n : Nat) (f : Core → Core) : (s.modCore n f).sec = s.sec := rfl
@[simp] theorem modCore_pins (n : Nat) (f : Core → Core) : (s.modCore n f).pins = s.pins := rfl
@[simp] theorem modCore_gctl (n : Nat) (f : Core → Core) : (s.modCore n f).gctl = s.gctl := rfl
@[simp] theorem modCore_sealedRecs (n : Nat) (f : Core → Core) : (s.modCore n f).sealedRecs = s.sealedRecs := rfl
@[simp] theorem modCore_frozen (n : Nat) (f : Core → Core) : (s.modCore n f).frozen = s.frozen := rfl
@[simp] theorem modCore_timeUs (n : Nat) (f : Core → Core) : (s.modCore n f).timeUs = s.timeUs := rfl
@[simp] theorem modCore_free (n : Nat) (f : Core → Core) : (s.modCore n f).free = s.free := rfl

/-! ## setPair -/

@[simp] theorem setPair_pending (k : Nat) (p : Pair) : (s.setPair k p).pending = s.pending := rfl
@[simp] theorem setPair_crs (k : Nat) (p : Pair) : (s.setPair k p).crs = s.crs := rfl
@[simp] theorem setPair_cores (k : Nat) (p : Pair) : (s.setPair k p).cores = s.cores := rfl
@[simp] theorem setPair_tcm (k : Nat) (p : Pair) : (s.setPair k p).tcm = s.tcm := rfl
@[simp] theorem setPair_lines (k : Nat) (p : Pair) : (s.setPair k p).lines = s.lines := rfl
@[simp] theorem setPair_dir (k : Nat) (p : Pair) : (s.setPair k p).dir = s.dir := rfl
@[simp] theorem setPair_homes (k : Nat) (p : Pair) : (s.setPair k p).homes = s.homes := rfl
@[simp] theorem setPair_dram (k : Nat) (p : Pair) : (s.setPair k p).dram = s.dram := rfl
@[simp] theorem setPair_lmeta (k : Nat) (p : Pair) : (s.setPair k p).lmeta = s.lmeta := rfl
@[simp] theorem setPair_mcs (k : Nat) (p : Pair) : (s.setPair k p).mcs = s.mcs := rfl
@[simp] theorem setPair_keys (k : Nat) (p : Pair) : (s.setPair k p).keys = s.keys := rfl
@[simp] theorem setPair_shadow (k : Nat) (p : Pair) : (s.setPair k p).shadow = s.shadow := rfl
@[simp] theorem setPair_fab (k : Nat) (p : Pair) : (s.setPair k p).fab = s.fab := rfl
@[simp] theorem setPair_sweep (k : Nat) (p : Pair) : (s.setPair k p).sweep = s.sweep := rfl
@[simp] theorem setPair_io (k : Nat) (p : Pair) : (s.setPair k p).io = s.io := rfl
@[simp] theorem setPair_fin (k : Nat) (p : Pair) : (s.setPair k p).fin = s.fin := rfl
@[simp] theorem setPair_power (k : Nat) (p : Pair) : (s.setPair k p).power = s.power := rfl
@[simp] theorem setPair_boot (k : Nat) (p : Pair) : (s.setPair k p).boot = s.boot := rfl
@[simp] theorem setPair_ras (k : Nat) (p : Pair) : (s.setPair k p).ras = s.ras := rfl
@[simp] theorem setPair_sec (k : Nat) (p : Pair) : (s.setPair k p).sec = s.sec := rfl
@[simp] theorem setPair_pins (k : Nat) (p : Pair) : (s.setPair k p).pins = s.pins := rfl
@[simp] theorem setPair_gctl (k : Nat) (p : Pair) : (s.setPair k p).gctl = s.gctl := rfl
@[simp] theorem setPair_sealedRecs (k : Nat) (p : Pair) : (s.setPair k p).sealedRecs = s.sealedRecs := rfl
@[simp] theorem setPair_frozen (k : Nat) (p : Pair) : (s.setPair k p).frozen = s.frozen := rfl
@[simp] theorem setPair_timeUs (k : Nat) (p : Pair) : (s.setPair k p).timeUs = s.timeUs := rfl
@[simp] theorem setPair_free (k : Nat) (p : Pair) : (s.setPair k p).free = s.free := rfl

/-! ## modPair -/

@[simp] theorem modPair_pending (k : Nat) (f : Pair → Pair) : (s.modPair k f).pending = s.pending := rfl
@[simp] theorem modPair_crs (k : Nat) (f : Pair → Pair) : (s.modPair k f).crs = s.crs := rfl
@[simp] theorem modPair_cores (k : Nat) (f : Pair → Pair) : (s.modPair k f).cores = s.cores := rfl
@[simp] theorem modPair_tcm (k : Nat) (f : Pair → Pair) : (s.modPair k f).tcm = s.tcm := rfl
@[simp] theorem modPair_lines (k : Nat) (f : Pair → Pair) : (s.modPair k f).lines = s.lines := rfl
@[simp] theorem modPair_dir (k : Nat) (f : Pair → Pair) : (s.modPair k f).dir = s.dir := rfl
@[simp] theorem modPair_homes (k : Nat) (f : Pair → Pair) : (s.modPair k f).homes = s.homes := rfl
@[simp] theorem modPair_dram (k : Nat) (f : Pair → Pair) : (s.modPair k f).dram = s.dram := rfl
@[simp] theorem modPair_lmeta (k : Nat) (f : Pair → Pair) : (s.modPair k f).lmeta = s.lmeta := rfl
@[simp] theorem modPair_mcs (k : Nat) (f : Pair → Pair) : (s.modPair k f).mcs = s.mcs := rfl
@[simp] theorem modPair_keys (k : Nat) (f : Pair → Pair) : (s.modPair k f).keys = s.keys := rfl
@[simp] theorem modPair_shadow (k : Nat) (f : Pair → Pair) : (s.modPair k f).shadow = s.shadow := rfl
@[simp] theorem modPair_fab (k : Nat) (f : Pair → Pair) : (s.modPair k f).fab = s.fab := rfl
@[simp] theorem modPair_sweep (k : Nat) (f : Pair → Pair) : (s.modPair k f).sweep = s.sweep := rfl
@[simp] theorem modPair_io (k : Nat) (f : Pair → Pair) : (s.modPair k f).io = s.io := rfl
@[simp] theorem modPair_fin (k : Nat) (f : Pair → Pair) : (s.modPair k f).fin = s.fin := rfl
@[simp] theorem modPair_power (k : Nat) (f : Pair → Pair) : (s.modPair k f).power = s.power := rfl
@[simp] theorem modPair_boot (k : Nat) (f : Pair → Pair) : (s.modPair k f).boot = s.boot := rfl
@[simp] theorem modPair_ras (k : Nat) (f : Pair → Pair) : (s.modPair k f).ras = s.ras := rfl
@[simp] theorem modPair_sec (k : Nat) (f : Pair → Pair) : (s.modPair k f).sec = s.sec := rfl
@[simp] theorem modPair_pins (k : Nat) (f : Pair → Pair) : (s.modPair k f).pins = s.pins := rfl
@[simp] theorem modPair_gctl (k : Nat) (f : Pair → Pair) : (s.modPair k f).gctl = s.gctl := rfl
@[simp] theorem modPair_sealedRecs (k : Nat) (f : Pair → Pair) : (s.modPair k f).sealedRecs = s.sealedRecs := rfl
@[simp] theorem modPair_frozen (k : Nat) (f : Pair → Pair) : (s.modPair k f).frozen = s.frozen := rfl
@[simp] theorem modPair_timeUs (k : Nat) (f : Pair → Pair) : (s.modPair k f).timeUs = s.timeUs := rfl
@[simp] theorem modPair_free (k : Nat) (f : Pair → Pair) : (s.modPair k f).free = s.free := rfl

/-! ## setMc -/

@[simp] theorem setMc_pending (n : Nat) (m : MemStop) : (s.setMc n m).pending = s.pending := rfl
@[simp] theorem setMc_crs (n : Nat) (m : MemStop) : (s.setMc n m).crs = s.crs := rfl
@[simp] theorem setMc_cores (n : Nat) (m : MemStop) : (s.setMc n m).cores = s.cores := rfl
@[simp] theorem setMc_pairs (n : Nat) (m : MemStop) : (s.setMc n m).pairs = s.pairs := rfl
@[simp] theorem setMc_tcm (n : Nat) (m : MemStop) : (s.setMc n m).tcm = s.tcm := rfl
@[simp] theorem setMc_lines (n : Nat) (m : MemStop) : (s.setMc n m).lines = s.lines := rfl
@[simp] theorem setMc_dir (n : Nat) (m : MemStop) : (s.setMc n m).dir = s.dir := rfl
@[simp] theorem setMc_homes (n : Nat) (m : MemStop) : (s.setMc n m).homes = s.homes := rfl
@[simp] theorem setMc_dram (n : Nat) (m : MemStop) : (s.setMc n m).dram = s.dram := rfl
@[simp] theorem setMc_lmeta (n : Nat) (m : MemStop) : (s.setMc n m).lmeta = s.lmeta := rfl
@[simp] theorem setMc_keys (n : Nat) (m : MemStop) : (s.setMc n m).keys = s.keys := rfl
@[simp] theorem setMc_shadow (n : Nat) (m : MemStop) : (s.setMc n m).shadow = s.shadow := rfl
@[simp] theorem setMc_fab (n : Nat) (m : MemStop) : (s.setMc n m).fab = s.fab := rfl
@[simp] theorem setMc_sweep (n : Nat) (m : MemStop) : (s.setMc n m).sweep = s.sweep := rfl
@[simp] theorem setMc_io (n : Nat) (m : MemStop) : (s.setMc n m).io = s.io := rfl
@[simp] theorem setMc_fin (n : Nat) (m : MemStop) : (s.setMc n m).fin = s.fin := rfl
@[simp] theorem setMc_power (n : Nat) (m : MemStop) : (s.setMc n m).power = s.power := rfl
@[simp] theorem setMc_boot (n : Nat) (m : MemStop) : (s.setMc n m).boot = s.boot := rfl
@[simp] theorem setMc_ras (n : Nat) (m : MemStop) : (s.setMc n m).ras = s.ras := rfl
@[simp] theorem setMc_sec (n : Nat) (m : MemStop) : (s.setMc n m).sec = s.sec := rfl
@[simp] theorem setMc_pins (n : Nat) (m : MemStop) : (s.setMc n m).pins = s.pins := rfl
@[simp] theorem setMc_gctl (n : Nat) (m : MemStop) : (s.setMc n m).gctl = s.gctl := rfl
@[simp] theorem setMc_sealedRecs (n : Nat) (m : MemStop) : (s.setMc n m).sealedRecs = s.sealedRecs := rfl
@[simp] theorem setMc_frozen (n : Nat) (m : MemStop) : (s.setMc n m).frozen = s.frozen := rfl
@[simp] theorem setMc_timeUs (n : Nat) (m : MemStop) : (s.setMc n m).timeUs = s.timeUs := rfl
@[simp] theorem setMc_free (n : Nat) (m : MemStop) : (s.setMc n m).free = s.free := rfl

/-! ## modMc -/

@[simp] theorem modMc_pending (n : Nat) (f : MemStop → MemStop) : (s.modMc n f).pending = s.pending := rfl
@[simp] theorem modMc_crs (n : Nat) (f : MemStop → MemStop) : (s.modMc n f).crs = s.crs := rfl
@[simp] theorem modMc_cores (n : Nat) (f : MemStop → MemStop) : (s.modMc n f).cores = s.cores := rfl
@[simp] theorem modMc_pairs (n : Nat) (f : MemStop → MemStop) : (s.modMc n f).pairs = s.pairs := rfl
@[simp] theorem modMc_tcm (n : Nat) (f : MemStop → MemStop) : (s.modMc n f).tcm = s.tcm := rfl
@[simp] theorem modMc_lines (n : Nat) (f : MemStop → MemStop) : (s.modMc n f).lines = s.lines := rfl
@[simp] theorem modMc_dir (n : Nat) (f : MemStop → MemStop) : (s.modMc n f).dir = s.dir := rfl
@[simp] theorem modMc_homes (n : Nat) (f : MemStop → MemStop) : (s.modMc n f).homes = s.homes := rfl
@[simp] theorem modMc_dram (n : Nat) (f : MemStop → MemStop) : (s.modMc n f).dram = s.dram := rfl
@[simp] theorem modMc_lmeta (n : Nat) (f : MemStop → MemStop) : (s.modMc n f).lmeta = s.lmeta := rfl
@[simp] theorem modMc_keys (n : Nat) (f : MemStop → MemStop) : (s.modMc n f).keys = s.keys := rfl
@[simp] theorem modMc_shadow (n : Nat) (f : MemStop → MemStop) : (s.modMc n f).shadow = s.shadow := rfl
@[simp] theorem modMc_fab (n : Nat) (f : MemStop → MemStop) : (s.modMc n f).fab = s.fab := rfl
@[simp] theorem modMc_sweep (n : Nat) (f : MemStop → MemStop) : (s.modMc n f).sweep = s.sweep := rfl
@[simp] theorem modMc_io (n : Nat) (f : MemStop → MemStop) : (s.modMc n f).io = s.io := rfl
@[simp] theorem modMc_fin (n : Nat) (f : MemStop → MemStop) : (s.modMc n f).fin = s.fin := rfl
@[simp] theorem modMc_power (n : Nat) (f : MemStop → MemStop) : (s.modMc n f).power = s.power := rfl
@[simp] theorem modMc_boot (n : Nat) (f : MemStop → MemStop) : (s.modMc n f).boot = s.boot := rfl
@[simp] theorem modMc_ras (n : Nat) (f : MemStop → MemStop) : (s.modMc n f).ras = s.ras := rfl
@[simp] theorem modMc_sec (n : Nat) (f : MemStop → MemStop) : (s.modMc n f).sec = s.sec := rfl
@[simp] theorem modMc_pins (n : Nat) (f : MemStop → MemStop) : (s.modMc n f).pins = s.pins := rfl
@[simp] theorem modMc_gctl (n : Nat) (f : MemStop → MemStop) : (s.modMc n f).gctl = s.gctl := rfl
@[simp] theorem modMc_sealedRecs (n : Nat) (f : MemStop → MemStop) : (s.modMc n f).sealedRecs = s.sealedRecs := rfl
@[simp] theorem modMc_frozen (n : Nat) (f : MemStop → MemStop) : (s.modMc n f).frozen = s.frozen := rfl
@[simp] theorem modMc_timeUs (n : Nat) (f : MemStop → MemStop) : (s.modMc n f).timeUs = s.timeUs := rfl
@[simp] theorem modMc_free (n : Nat) (f : MemStop → MemStop) : (s.modMc n f).free = s.free := rfl

/-! ## modQueue -/

@[simp] theorem modQueue_pending (q : Nat) (f : SwQueue → SwQueue) : (s.modQueue q f).pending = s.pending := rfl
@[simp] theorem modQueue_crs (q : Nat) (f : SwQueue → SwQueue) : (s.modQueue q f).crs = s.crs := rfl
@[simp] theorem modQueue_cores (q : Nat) (f : SwQueue → SwQueue) : (s.modQueue q f).cores = s.cores := rfl
@[simp] theorem modQueue_pairs (q : Nat) (f : SwQueue → SwQueue) : (s.modQueue q f).pairs = s.pairs := rfl
@[simp] theorem modQueue_tcm (q : Nat) (f : SwQueue → SwQueue) : (s.modQueue q f).tcm = s.tcm := rfl
@[simp] theorem modQueue_lines (q : Nat) (f : SwQueue → SwQueue) : (s.modQueue q f).lines = s.lines := rfl
@[simp] theorem modQueue_dir (q : Nat) (f : SwQueue → SwQueue) : (s.modQueue q f).dir = s.dir := rfl
@[simp] theorem modQueue_homes (q : Nat) (f : SwQueue → SwQueue) : (s.modQueue q f).homes = s.homes := rfl
@[simp] theorem modQueue_dram (q : Nat) (f : SwQueue → SwQueue) : (s.modQueue q f).dram = s.dram := rfl
@[simp] theorem modQueue_lmeta (q : Nat) (f : SwQueue → SwQueue) : (s.modQueue q f).lmeta = s.lmeta := rfl
@[simp] theorem modQueue_mcs (q : Nat) (f : SwQueue → SwQueue) : (s.modQueue q f).mcs = s.mcs := rfl
@[simp] theorem modQueue_keys (q : Nat) (f : SwQueue → SwQueue) : (s.modQueue q f).keys = s.keys := rfl
@[simp] theorem modQueue_shadow (q : Nat) (f : SwQueue → SwQueue) : (s.modQueue q f).shadow = s.shadow := rfl
@[simp] theorem modQueue_fab (q : Nat) (f : SwQueue → SwQueue) : (s.modQueue q f).fab = s.fab := rfl
@[simp] theorem modQueue_io (q : Nat) (f : SwQueue → SwQueue) : (s.modQueue q f).io = s.io := rfl
@[simp] theorem modQueue_fin (q : Nat) (f : SwQueue → SwQueue) : (s.modQueue q f).fin = s.fin := rfl
@[simp] theorem modQueue_power (q : Nat) (f : SwQueue → SwQueue) : (s.modQueue q f).power = s.power := rfl
@[simp] theorem modQueue_boot (q : Nat) (f : SwQueue → SwQueue) : (s.modQueue q f).boot = s.boot := rfl
@[simp] theorem modQueue_ras (q : Nat) (f : SwQueue → SwQueue) : (s.modQueue q f).ras = s.ras := rfl
@[simp] theorem modQueue_sec (q : Nat) (f : SwQueue → SwQueue) : (s.modQueue q f).sec = s.sec := rfl
@[simp] theorem modQueue_pins (q : Nat) (f : SwQueue → SwQueue) : (s.modQueue q f).pins = s.pins := rfl
@[simp] theorem modQueue_gctl (q : Nat) (f : SwQueue → SwQueue) : (s.modQueue q f).gctl = s.gctl := rfl
@[simp] theorem modQueue_sealedRecs (q : Nat) (f : SwQueue → SwQueue) : (s.modQueue q f).sealedRecs = s.sealedRecs := rfl
@[simp] theorem modQueue_frozen (q : Nat) (f : SwQueue → SwQueue) : (s.modQueue q f).frozen = s.frozen := rfl
@[simp] theorem modQueue_timeUs (q : Nat) (f : SwQueue → SwQueue) : (s.modQueue q f).timeUs = s.timeUs := rfl
@[simp] theorem modQueue_free (q : Nat) (f : SwQueue → SwQueue) : (s.modQueue q f).free = s.free := rfl

/-! ## modEngine -/

@[simp] theorem modEngine_pending (e : Nat) (f : SwEngine → SwEngine) : (s.modEngine e f).pending = s.pending := rfl
@[simp] theorem modEngine_crs (e : Nat) (f : SwEngine → SwEngine) : (s.modEngine e f).crs = s.crs := rfl
@[simp] theorem modEngine_cores (e : Nat) (f : SwEngine → SwEngine) : (s.modEngine e f).cores = s.cores := rfl
@[simp] theorem modEngine_pairs (e : Nat) (f : SwEngine → SwEngine) : (s.modEngine e f).pairs = s.pairs := rfl
@[simp] theorem modEngine_tcm (e : Nat) (f : SwEngine → SwEngine) : (s.modEngine e f).tcm = s.tcm := rfl
@[simp] theorem modEngine_lines (e : Nat) (f : SwEngine → SwEngine) : (s.modEngine e f).lines = s.lines := rfl
@[simp] theorem modEngine_dir (e : Nat) (f : SwEngine → SwEngine) : (s.modEngine e f).dir = s.dir := rfl
@[simp] theorem modEngine_homes (e : Nat) (f : SwEngine → SwEngine) : (s.modEngine e f).homes = s.homes := rfl
@[simp] theorem modEngine_dram (e : Nat) (f : SwEngine → SwEngine) : (s.modEngine e f).dram = s.dram := rfl
@[simp] theorem modEngine_lmeta (e : Nat) (f : SwEngine → SwEngine) : (s.modEngine e f).lmeta = s.lmeta := rfl
@[simp] theorem modEngine_mcs (e : Nat) (f : SwEngine → SwEngine) : (s.modEngine e f).mcs = s.mcs := rfl
@[simp] theorem modEngine_keys (e : Nat) (f : SwEngine → SwEngine) : (s.modEngine e f).keys = s.keys := rfl
@[simp] theorem modEngine_shadow (e : Nat) (f : SwEngine → SwEngine) : (s.modEngine e f).shadow = s.shadow := rfl
@[simp] theorem modEngine_fab (e : Nat) (f : SwEngine → SwEngine) : (s.modEngine e f).fab = s.fab := rfl
@[simp] theorem modEngine_io (e : Nat) (f : SwEngine → SwEngine) : (s.modEngine e f).io = s.io := rfl
@[simp] theorem modEngine_fin (e : Nat) (f : SwEngine → SwEngine) : (s.modEngine e f).fin = s.fin := rfl
@[simp] theorem modEngine_power (e : Nat) (f : SwEngine → SwEngine) : (s.modEngine e f).power = s.power := rfl
@[simp] theorem modEngine_boot (e : Nat) (f : SwEngine → SwEngine) : (s.modEngine e f).boot = s.boot := rfl
@[simp] theorem modEngine_ras (e : Nat) (f : SwEngine → SwEngine) : (s.modEngine e f).ras = s.ras := rfl
@[simp] theorem modEngine_sec (e : Nat) (f : SwEngine → SwEngine) : (s.modEngine e f).sec = s.sec := rfl
@[simp] theorem modEngine_pins (e : Nat) (f : SwEngine → SwEngine) : (s.modEngine e f).pins = s.pins := rfl
@[simp] theorem modEngine_gctl (e : Nat) (f : SwEngine → SwEngine) : (s.modEngine e f).gctl = s.gctl := rfl
@[simp] theorem modEngine_sealedRecs (e : Nat) (f : SwEngine → SwEngine) : (s.modEngine e f).sealedRecs = s.sealedRecs := rfl
@[simp] theorem modEngine_frozen (e : Nat) (f : SwEngine → SwEngine) : (s.modEngine e f).frozen = s.frozen := rfl
@[simp] theorem modEngine_timeUs (e : Nat) (f : SwEngine → SwEngine) : (s.modEngine e f).timeUs = s.timeUs := rfl
@[simp] theorem modEngine_free (e : Nat) (f : SwEngine → SwEngine) : (s.modEngine e f).free = s.free := rfl

/-! ## modIo -/

@[simp] theorem modIo_pending (n : Nat) (f : IoStop → IoStop) : (s.modIo n f).pending = s.pending := rfl
@[simp] theorem modIo_crs (n : Nat) (f : IoStop → IoStop) : (s.modIo n f).crs = s.crs := rfl
@[simp] theorem modIo_cores (n : Nat) (f : IoStop → IoStop) : (s.modIo n f).cores = s.cores := rfl
@[simp] theorem modIo_pairs (n : Nat) (f : IoStop → IoStop) : (s.modIo n f).pairs = s.pairs := rfl
@[simp] theorem modIo_tcm (n : Nat) (f : IoStop → IoStop) : (s.modIo n f).tcm = s.tcm := rfl
@[simp] theorem modIo_lines (n : Nat) (f : IoStop → IoStop) : (s.modIo n f).lines = s.lines := rfl
@[simp] theorem modIo_dir (n : Nat) (f : IoStop → IoStop) : (s.modIo n f).dir = s.dir := rfl
@[simp] theorem modIo_homes (n : Nat) (f : IoStop → IoStop) : (s.modIo n f).homes = s.homes := rfl
@[simp] theorem modIo_dram (n : Nat) (f : IoStop → IoStop) : (s.modIo n f).dram = s.dram := rfl
@[simp] theorem modIo_lmeta (n : Nat) (f : IoStop → IoStop) : (s.modIo n f).lmeta = s.lmeta := rfl
@[simp] theorem modIo_mcs (n : Nat) (f : IoStop → IoStop) : (s.modIo n f).mcs = s.mcs := rfl
@[simp] theorem modIo_keys (n : Nat) (f : IoStop → IoStop) : (s.modIo n f).keys = s.keys := rfl
@[simp] theorem modIo_shadow (n : Nat) (f : IoStop → IoStop) : (s.modIo n f).shadow = s.shadow := rfl
@[simp] theorem modIo_fab (n : Nat) (f : IoStop → IoStop) : (s.modIo n f).fab = s.fab := rfl
@[simp] theorem modIo_sweep (n : Nat) (f : IoStop → IoStop) : (s.modIo n f).sweep = s.sweep := rfl
@[simp] theorem modIo_fin (n : Nat) (f : IoStop → IoStop) : (s.modIo n f).fin = s.fin := rfl
@[simp] theorem modIo_power (n : Nat) (f : IoStop → IoStop) : (s.modIo n f).power = s.power := rfl
@[simp] theorem modIo_boot (n : Nat) (f : IoStop → IoStop) : (s.modIo n f).boot = s.boot := rfl
@[simp] theorem modIo_ras (n : Nat) (f : IoStop → IoStop) : (s.modIo n f).ras = s.ras := rfl
@[simp] theorem modIo_sec (n : Nat) (f : IoStop → IoStop) : (s.modIo n f).sec = s.sec := rfl
@[simp] theorem modIo_pins (n : Nat) (f : IoStop → IoStop) : (s.modIo n f).pins = s.pins := rfl
@[simp] theorem modIo_gctl (n : Nat) (f : IoStop → IoStop) : (s.modIo n f).gctl = s.gctl := rfl
@[simp] theorem modIo_sealedRecs (n : Nat) (f : IoStop → IoStop) : (s.modIo n f).sealedRecs = s.sealedRecs := rfl
@[simp] theorem modIo_frozen (n : Nat) (f : IoStop → IoStop) : (s.modIo n f).frozen = s.frozen := rfl
@[simp] theorem modIo_timeUs (n : Nat) (f : IoStop → IoStop) : (s.modIo n f).timeUs = s.timeUs := rfl
@[simp] theorem modIo_free (n : Nat) (f : IoStop → IoStop) : (s.modIo n f).free = s.free := rfl

/-! ## modFn -/

@[simp] theorem modFn_pending (i : Nat) (f : EpFn → EpFn) : (s.modFn i f).pending = s.pending := rfl
@[simp] theorem modFn_crs (i : Nat) (f : EpFn → EpFn) : (s.modFn i f).crs = s.crs := rfl
@[simp] theorem modFn_cores (i : Nat) (f : EpFn → EpFn) : (s.modFn i f).cores = s.cores := rfl
@[simp] theorem modFn_pairs (i : Nat) (f : EpFn → EpFn) : (s.modFn i f).pairs = s.pairs := rfl
@[simp] theorem modFn_tcm (i : Nat) (f : EpFn → EpFn) : (s.modFn i f).tcm = s.tcm := rfl
@[simp] theorem modFn_lines (i : Nat) (f : EpFn → EpFn) : (s.modFn i f).lines = s.lines := rfl
@[simp] theorem modFn_dir (i : Nat) (f : EpFn → EpFn) : (s.modFn i f).dir = s.dir := rfl
@[simp] theorem modFn_homes (i : Nat) (f : EpFn → EpFn) : (s.modFn i f).homes = s.homes := rfl
@[simp] theorem modFn_dram (i : Nat) (f : EpFn → EpFn) : (s.modFn i f).dram = s.dram := rfl
@[simp] theorem modFn_lmeta (i : Nat) (f : EpFn → EpFn) : (s.modFn i f).lmeta = s.lmeta := rfl
@[simp] theorem modFn_mcs (i : Nat) (f : EpFn → EpFn) : (s.modFn i f).mcs = s.mcs := rfl
@[simp] theorem modFn_keys (i : Nat) (f : EpFn → EpFn) : (s.modFn i f).keys = s.keys := rfl
@[simp] theorem modFn_shadow (i : Nat) (f : EpFn → EpFn) : (s.modFn i f).shadow = s.shadow := rfl
@[simp] theorem modFn_fab (i : Nat) (f : EpFn → EpFn) : (s.modFn i f).fab = s.fab := rfl
@[simp] theorem modFn_sweep (i : Nat) (f : EpFn → EpFn) : (s.modFn i f).sweep = s.sweep := rfl
@[simp] theorem modFn_fin (i : Nat) (f : EpFn → EpFn) : (s.modFn i f).fin = s.fin := rfl
@[simp] theorem modFn_power (i : Nat) (f : EpFn → EpFn) : (s.modFn i f).power = s.power := rfl
@[simp] theorem modFn_boot (i : Nat) (f : EpFn → EpFn) : (s.modFn i f).boot = s.boot := rfl
@[simp] theorem modFn_ras (i : Nat) (f : EpFn → EpFn) : (s.modFn i f).ras = s.ras := rfl
@[simp] theorem modFn_sec (i : Nat) (f : EpFn → EpFn) : (s.modFn i f).sec = s.sec := rfl
@[simp] theorem modFn_pins (i : Nat) (f : EpFn → EpFn) : (s.modFn i f).pins = s.pins := rfl
@[simp] theorem modFn_gctl (i : Nat) (f : EpFn → EpFn) : (s.modFn i f).gctl = s.gctl := rfl
@[simp] theorem modFn_sealedRecs (i : Nat) (f : EpFn → EpFn) : (s.modFn i f).sealedRecs = s.sealedRecs := rfl
@[simp] theorem modFn_frozen (i : Nat) (f : EpFn → EpFn) : (s.modFn i f).frozen = s.frozen := rfl
@[simp] theorem modFn_timeUs (i : Nat) (f : EpFn → EpFn) : (s.modFn i f).timeUs = s.timeUs := rfl
@[simp] theorem modFn_free (i : Nat) (f : EpFn → EpFn) : (s.modFn i f).free = s.free := rfl

/-! ## modFab -/

@[simp] theorem modFab_pending (f : Fabric → Fabric) : (s.modFab f).pending = s.pending := rfl
@[simp] theorem modFab_crs (f : Fabric → Fabric) : (s.modFab f).crs = s.crs := rfl
@[simp] theorem modFab_cores (f : Fabric → Fabric) : (s.modFab f).cores = s.cores := rfl
@[simp] theorem modFab_pairs (f : Fabric → Fabric) : (s.modFab f).pairs = s.pairs := rfl
@[simp] theorem modFab_tcm (f : Fabric → Fabric) : (s.modFab f).tcm = s.tcm := rfl
@[simp] theorem modFab_lines (f : Fabric → Fabric) : (s.modFab f).lines = s.lines := rfl
@[simp] theorem modFab_dir (f : Fabric → Fabric) : (s.modFab f).dir = s.dir := rfl
@[simp] theorem modFab_homes (f : Fabric → Fabric) : (s.modFab f).homes = s.homes := rfl
@[simp] theorem modFab_dram (f : Fabric → Fabric) : (s.modFab f).dram = s.dram := rfl
@[simp] theorem modFab_lmeta (f : Fabric → Fabric) : (s.modFab f).lmeta = s.lmeta := rfl
@[simp] theorem modFab_mcs (f : Fabric → Fabric) : (s.modFab f).mcs = s.mcs := rfl
@[simp] theorem modFab_keys (f : Fabric → Fabric) : (s.modFab f).keys = s.keys := rfl
@[simp] theorem modFab_shadow (f : Fabric → Fabric) : (s.modFab f).shadow = s.shadow := rfl
@[simp] theorem modFab_sweep (f : Fabric → Fabric) : (s.modFab f).sweep = s.sweep := rfl
@[simp] theorem modFab_io (f : Fabric → Fabric) : (s.modFab f).io = s.io := rfl
@[simp] theorem modFab_fin (f : Fabric → Fabric) : (s.modFab f).fin = s.fin := rfl
@[simp] theorem modFab_power (f : Fabric → Fabric) : (s.modFab f).power = s.power := rfl
@[simp] theorem modFab_boot (f : Fabric → Fabric) : (s.modFab f).boot = s.boot := rfl
@[simp] theorem modFab_ras (f : Fabric → Fabric) : (s.modFab f).ras = s.ras := rfl
@[simp] theorem modFab_sec (f : Fabric → Fabric) : (s.modFab f).sec = s.sec := rfl
@[simp] theorem modFab_pins (f : Fabric → Fabric) : (s.modFab f).pins = s.pins := rfl
@[simp] theorem modFab_gctl (f : Fabric → Fabric) : (s.modFab f).gctl = s.gctl := rfl
@[simp] theorem modFab_sealedRecs (f : Fabric → Fabric) : (s.modFab f).sealedRecs = s.sealedRecs := rfl
@[simp] theorem modFab_frozen (f : Fabric → Fabric) : (s.modFab f).frozen = s.frozen := rfl
@[simp] theorem modFab_timeUs (f : Fabric → Fabric) : (s.modFab f).timeUs = s.timeUs := rfl
@[simp] theorem modFab_free (f : Fabric → Fabric) : (s.modFab f).free = s.free := rfl

/-! ## modHomes -/

@[simp] theorem modHomes_pending (f : Homes → Homes) : (s.modHomes f).pending = s.pending := rfl
@[simp] theorem modHomes_crs (f : Homes → Homes) : (s.modHomes f).crs = s.crs := rfl
@[simp] theorem modHomes_cores (f : Homes → Homes) : (s.modHomes f).cores = s.cores := rfl
@[simp] theorem modHomes_pairs (f : Homes → Homes) : (s.modHomes f).pairs = s.pairs := rfl
@[simp] theorem modHomes_tcm (f : Homes → Homes) : (s.modHomes f).tcm = s.tcm := rfl
@[simp] theorem modHomes_lines (f : Homes → Homes) : (s.modHomes f).lines = s.lines := rfl
@[simp] theorem modHomes_dir (f : Homes → Homes) : (s.modHomes f).dir = s.dir := rfl
@[simp] theorem modHomes_dram (f : Homes → Homes) : (s.modHomes f).dram = s.dram := rfl
@[simp] theorem modHomes_lmeta (f : Homes → Homes) : (s.modHomes f).lmeta = s.lmeta := rfl
@[simp] theorem modHomes_mcs (f : Homes → Homes) : (s.modHomes f).mcs = s.mcs := rfl
@[simp] theorem modHomes_keys (f : Homes → Homes) : (s.modHomes f).keys = s.keys := rfl
@[simp] theorem modHomes_shadow (f : Homes → Homes) : (s.modHomes f).shadow = s.shadow := rfl
@[simp] theorem modHomes_fab (f : Homes → Homes) : (s.modHomes f).fab = s.fab := rfl
@[simp] theorem modHomes_sweep (f : Homes → Homes) : (s.modHomes f).sweep = s.sweep := rfl
@[simp] theorem modHomes_io (f : Homes → Homes) : (s.modHomes f).io = s.io := rfl
@[simp] theorem modHomes_fin (f : Homes → Homes) : (s.modHomes f).fin = s.fin := rfl
@[simp] theorem modHomes_power (f : Homes → Homes) : (s.modHomes f).power = s.power := rfl
@[simp] theorem modHomes_boot (f : Homes → Homes) : (s.modHomes f).boot = s.boot := rfl
@[simp] theorem modHomes_ras (f : Homes → Homes) : (s.modHomes f).ras = s.ras := rfl
@[simp] theorem modHomes_sec (f : Homes → Homes) : (s.modHomes f).sec = s.sec := rfl
@[simp] theorem modHomes_pins (f : Homes → Homes) : (s.modHomes f).pins = s.pins := rfl
@[simp] theorem modHomes_gctl (f : Homes → Homes) : (s.modHomes f).gctl = s.gctl := rfl
@[simp] theorem modHomes_sealedRecs (f : Homes → Homes) : (s.modHomes f).sealedRecs = s.sealedRecs := rfl
@[simp] theorem modHomes_frozen (f : Homes → Homes) : (s.modHomes f).frozen = s.frozen := rfl
@[simp] theorem modHomes_timeUs (f : Homes → Homes) : (s.modHomes f).timeUs = s.timeUs := rfl
@[simp] theorem modHomes_free (f : Homes → Homes) : (s.modHomes f).free = s.free := rfl

/-! ## setReg -/

@[simp] theorem setReg_pending (r : RegName) (v : W64) (u i : Nat) : (s.setReg r v u i).pending = s.pending := rfl
@[simp] theorem setReg_cores (r : RegName) (v : W64) (u i : Nat) : (s.setReg r v u i).cores = s.cores := rfl
@[simp] theorem setReg_pairs (r : RegName) (v : W64) (u i : Nat) : (s.setReg r v u i).pairs = s.pairs := rfl
@[simp] theorem setReg_tcm (r : RegName) (v : W64) (u i : Nat) : (s.setReg r v u i).tcm = s.tcm := rfl
@[simp] theorem setReg_lines (r : RegName) (v : W64) (u i : Nat) : (s.setReg r v u i).lines = s.lines := rfl
@[simp] theorem setReg_dir (r : RegName) (v : W64) (u i : Nat) : (s.setReg r v u i).dir = s.dir := rfl
@[simp] theorem setReg_homes (r : RegName) (v : W64) (u i : Nat) : (s.setReg r v u i).homes = s.homes := rfl
@[simp] theorem setReg_dram (r : RegName) (v : W64) (u i : Nat) : (s.setReg r v u i).dram = s.dram := rfl
@[simp] theorem setReg_lmeta (r : RegName) (v : W64) (u i : Nat) : (s.setReg r v u i).lmeta = s.lmeta := rfl
@[simp] theorem setReg_mcs (r : RegName) (v : W64) (u i : Nat) : (s.setReg r v u i).mcs = s.mcs := rfl
@[simp] theorem setReg_keys (r : RegName) (v : W64) (u i : Nat) : (s.setReg r v u i).keys = s.keys := rfl
@[simp] theorem setReg_shadow (r : RegName) (v : W64) (u i : Nat) : (s.setReg r v u i).shadow = s.shadow := rfl
@[simp] theorem setReg_fab (r : RegName) (v : W64) (u i : Nat) : (s.setReg r v u i).fab = s.fab := rfl
@[simp] theorem setReg_sweep (r : RegName) (v : W64) (u i : Nat) : (s.setReg r v u i).sweep = s.sweep := rfl
@[simp] theorem setReg_io (r : RegName) (v : W64) (u i : Nat) : (s.setReg r v u i).io = s.io := rfl
@[simp] theorem setReg_fin (r : RegName) (v : W64) (u i : Nat) : (s.setReg r v u i).fin = s.fin := rfl
@[simp] theorem setReg_power (r : RegName) (v : W64) (u i : Nat) : (s.setReg r v u i).power = s.power := rfl
@[simp] theorem setReg_boot (r : RegName) (v : W64) (u i : Nat) : (s.setReg r v u i).boot = s.boot := rfl
@[simp] theorem setReg_ras (r : RegName) (v : W64) (u i : Nat) : (s.setReg r v u i).ras = s.ras := rfl
@[simp] theorem setReg_sec (r : RegName) (v : W64) (u i : Nat) : (s.setReg r v u i).sec = s.sec := rfl
@[simp] theorem setReg_pins (r : RegName) (v : W64) (u i : Nat) : (s.setReg r v u i).pins = s.pins := rfl
@[simp] theorem setReg_gctl (r : RegName) (v : W64) (u i : Nat) : (s.setReg r v u i).gctl = s.gctl := rfl
@[simp] theorem setReg_sealedRecs (r : RegName) (v : W64) (u i : Nat) : (s.setReg r v u i).sealedRecs = s.sealedRecs := rfl
@[simp] theorem setReg_frozen (r : RegName) (v : W64) (u i : Nat) : (s.setReg r v u i).frozen = s.frozen := rfl
@[simp] theorem setReg_timeUs (r : RegName) (v : W64) (u i : Nat) : (s.setReg r v u i).timeUs = s.timeUs := rfl
@[simp] theorem setReg_free (r : RegName) (v : W64) (u i : Nat) : (s.setReg r v u i).free = s.free := rfl

/-! ## setRegF -/

@[simp] theorem setRegF_pending (r : RegName) (hi lo x u i : Nat) : (s.setRegF r hi lo x u i).pending = s.pending := rfl
@[simp] theorem setRegF_cores (r : RegName) (hi lo x u i : Nat) : (s.setRegF r hi lo x u i).cores = s.cores := rfl
@[simp] theorem setRegF_pairs (r : RegName) (hi lo x u i : Nat) : (s.setRegF r hi lo x u i).pairs = s.pairs := rfl
@[simp] theorem setRegF_tcm (r : RegName) (hi lo x u i : Nat) : (s.setRegF r hi lo x u i).tcm = s.tcm := rfl
@[simp] theorem setRegF_lines (r : RegName) (hi lo x u i : Nat) : (s.setRegF r hi lo x u i).lines = s.lines := rfl
@[simp] theorem setRegF_dir (r : RegName) (hi lo x u i : Nat) : (s.setRegF r hi lo x u i).dir = s.dir := rfl
@[simp] theorem setRegF_homes (r : RegName) (hi lo x u i : Nat) : (s.setRegF r hi lo x u i).homes = s.homes := rfl
@[simp] theorem setRegF_dram (r : RegName) (hi lo x u i : Nat) : (s.setRegF r hi lo x u i).dram = s.dram := rfl
@[simp] theorem setRegF_lmeta (r : RegName) (hi lo x u i : Nat) : (s.setRegF r hi lo x u i).lmeta = s.lmeta := rfl
@[simp] theorem setRegF_mcs (r : RegName) (hi lo x u i : Nat) : (s.setRegF r hi lo x u i).mcs = s.mcs := rfl
@[simp] theorem setRegF_keys (r : RegName) (hi lo x u i : Nat) : (s.setRegF r hi lo x u i).keys = s.keys := rfl
@[simp] theorem setRegF_shadow (r : RegName) (hi lo x u i : Nat) : (s.setRegF r hi lo x u i).shadow = s.shadow := rfl
@[simp] theorem setRegF_fab (r : RegName) (hi lo x u i : Nat) : (s.setRegF r hi lo x u i).fab = s.fab := rfl
@[simp] theorem setRegF_sweep (r : RegName) (hi lo x u i : Nat) : (s.setRegF r hi lo x u i).sweep = s.sweep := rfl
@[simp] theorem setRegF_io (r : RegName) (hi lo x u i : Nat) : (s.setRegF r hi lo x u i).io = s.io := rfl
@[simp] theorem setRegF_fin (r : RegName) (hi lo x u i : Nat) : (s.setRegF r hi lo x u i).fin = s.fin := rfl
@[simp] theorem setRegF_power (r : RegName) (hi lo x u i : Nat) : (s.setRegF r hi lo x u i).power = s.power := rfl
@[simp] theorem setRegF_boot (r : RegName) (hi lo x u i : Nat) : (s.setRegF r hi lo x u i).boot = s.boot := rfl
@[simp] theorem setRegF_ras (r : RegName) (hi lo x u i : Nat) : (s.setRegF r hi lo x u i).ras = s.ras := rfl
@[simp] theorem setRegF_sec (r : RegName) (hi lo x u i : Nat) : (s.setRegF r hi lo x u i).sec = s.sec := rfl
@[simp] theorem setRegF_pins (r : RegName) (hi lo x u i : Nat) : (s.setRegF r hi lo x u i).pins = s.pins := rfl
@[simp] theorem setRegF_gctl (r : RegName) (hi lo x u i : Nat) : (s.setRegF r hi lo x u i).gctl = s.gctl := rfl
@[simp] theorem setRegF_sealedRecs (r : RegName) (hi lo x u i : Nat) : (s.setRegF r hi lo x u i).sealedRecs = s.sealedRecs := rfl
@[simp] theorem setRegF_frozen (r : RegName) (hi lo x u i : Nat) : (s.setRegF r hi lo x u i).frozen = s.frozen := rfl
@[simp] theorem setRegF_timeUs (r : RegName) (hi lo x u i : Nat) : (s.setRegF r hi lo x u i).timeUs = s.timeUs := rfl
@[simp] theorem setRegF_free (r : RegName) (hi lo x u i : Nat) : (s.setRegF r hi lo x u i).free = s.free := rfl

/-! ## bumpReg -/

@[simp] theorem bumpReg_pending (r : RegName) (hi lo u i : Nat) : (s.bumpReg r hi lo u i).pending = s.pending := rfl
@[simp] theorem bumpReg_cores (r : RegName) (hi lo u i : Nat) : (s.bumpReg r hi lo u i).cores = s.cores := rfl
@[simp] theorem bumpReg_pairs (r : RegName) (hi lo u i : Nat) : (s.bumpReg r hi lo u i).pairs = s.pairs := rfl
@[simp] theorem bumpReg_tcm (r : RegName) (hi lo u i : Nat) : (s.bumpReg r hi lo u i).tcm = s.tcm := rfl
@[simp] theorem bumpReg_lines (r : RegName) (hi lo u i : Nat) : (s.bumpReg r hi lo u i).lines = s.lines := rfl
@[simp] theorem bumpReg_dir (r : RegName) (hi lo u i : Nat) : (s.bumpReg r hi lo u i).dir = s.dir := rfl
@[simp] theorem bumpReg_homes (r : RegName) (hi lo u i : Nat) : (s.bumpReg r hi lo u i).homes = s.homes := rfl
@[simp] theorem bumpReg_dram (r : RegName) (hi lo u i : Nat) : (s.bumpReg r hi lo u i).dram = s.dram := rfl
@[simp] theorem bumpReg_lmeta (r : RegName) (hi lo u i : Nat) : (s.bumpReg r hi lo u i).lmeta = s.lmeta := rfl
@[simp] theorem bumpReg_mcs (r : RegName) (hi lo u i : Nat) : (s.bumpReg r hi lo u i).mcs = s.mcs := rfl
@[simp] theorem bumpReg_keys (r : RegName) (hi lo u i : Nat) : (s.bumpReg r hi lo u i).keys = s.keys := rfl
@[simp] theorem bumpReg_shadow (r : RegName) (hi lo u i : Nat) : (s.bumpReg r hi lo u i).shadow = s.shadow := rfl
@[simp] theorem bumpReg_fab (r : RegName) (hi lo u i : Nat) : (s.bumpReg r hi lo u i).fab = s.fab := rfl
@[simp] theorem bumpReg_sweep (r : RegName) (hi lo u i : Nat) : (s.bumpReg r hi lo u i).sweep = s.sweep := rfl
@[simp] theorem bumpReg_io (r : RegName) (hi lo u i : Nat) : (s.bumpReg r hi lo u i).io = s.io := rfl
@[simp] theorem bumpReg_fin (r : RegName) (hi lo u i : Nat) : (s.bumpReg r hi lo u i).fin = s.fin := rfl
@[simp] theorem bumpReg_power (r : RegName) (hi lo u i : Nat) : (s.bumpReg r hi lo u i).power = s.power := rfl
@[simp] theorem bumpReg_boot (r : RegName) (hi lo u i : Nat) : (s.bumpReg r hi lo u i).boot = s.boot := rfl
@[simp] theorem bumpReg_ras (r : RegName) (hi lo u i : Nat) : (s.bumpReg r hi lo u i).ras = s.ras := rfl
@[simp] theorem bumpReg_sec (r : RegName) (hi lo u i : Nat) : (s.bumpReg r hi lo u i).sec = s.sec := rfl
@[simp] theorem bumpReg_pins (r : RegName) (hi lo u i : Nat) : (s.bumpReg r hi lo u i).pins = s.pins := rfl
@[simp] theorem bumpReg_gctl (r : RegName) (hi lo u i : Nat) : (s.bumpReg r hi lo u i).gctl = s.gctl := rfl
@[simp] theorem bumpReg_sealedRecs (r : RegName) (hi lo u i : Nat) : (s.bumpReg r hi lo u i).sealedRecs = s.sealedRecs := rfl
@[simp] theorem bumpReg_frozen (r : RegName) (hi lo u i : Nat) : (s.bumpReg r hi lo u i).frozen = s.frozen := rfl
@[simp] theorem bumpReg_timeUs (r : RegName) (hi lo u i : Nat) : (s.bumpReg r hi lo u i).timeUs = s.timeUs := rfl
@[simp] theorem bumpReg_free (r : RegName) (hi lo u i : Nat) : (s.bumpReg r hi lo u i).free = s.free := rfl

/-! ## Units after a write -/

@[simp] theorem core_setCore_same (n : Nat) (c : Core) : (s.setCore n c).core n = c := NMap.get_set_same ..
theorem core_setCore_ne (c : Core) {n m : Nat} (h : m ≠ n) : (s.setCore n c).core m = s.core m := NMap.get_set_ne _ _ _ h
@[simp] theorem core_modCore_same (n : Nat) (f : Core → Core) : (s.modCore n f).core n = f (s.core n) := NMap.get_set_same ..
theorem core_modCore_ne (f : Core → Core) {n m : Nat} (h : m ≠ n) : (s.modCore n f).core m = s.core m := NMap.get_set_ne _ _ _ h
@[simp] theorem pair_setPair_same (k : Nat) (p : Pair) : (s.setPair k p).pair k = p := NMap.get_set_same ..
theorem pair_setPair_ne (p : Pair) {k j : Nat} (h : j ≠ k) : (s.setPair k p).pair j = s.pair j := NMap.get_set_ne' _ _ _ _ h
@[simp] theorem pair_modPair_same (k : Nat) (f : Pair → Pair) : (s.modPair k f).pair k = f (s.pair k) := NMap.get_set_same ..
theorem pair_modPair_ne (f : Pair → Pair) {k j : Nat} (h : j ≠ k) : (s.modPair k f).pair j = s.pair j := NMap.get_set_ne' _ _ _ _ h
@[simp] theorem mc_setMc_same (n : Nat) (m : MemStop) : (s.setMc n m).mc n = m := NMap.get_set_same ..
@[simp] theorem mc_modMc_same (n : Nat) (f : MemStop → MemStop) : (s.modMc n f).mc n = f (s.mc n) := NMap.get_set_same ..
theorem mc_modMc_ne (f : MemStop → MemStop) {n m : Nat} (h : m ≠ n) : (s.modMc n f).mc m = s.mc m := NMap.get_set_ne _ _ _ h
@[simp] theorem queue_modQueue_same (q : Nat) (f : SwQueue → SwQueue) : (s.modQueue q f).queue q = f (s.queue q) := NMap.get_set_same ..
@[simp] theorem engine_modEngine_same (e : Nat) (f : SwEngine → SwEngine) : (s.modEngine e f).engine e = f (s.engine e) :=
  NMap.get_set_same ..
@[simp] theorem ioAt_modIo_same (n : Nat) (f : IoStop → IoStop) : (s.modIo n f).ioAt n = f (s.ioAt n) := NMap.get_set_same ..
@[simp] theorem fnAt_modFn_same (i : Nat) (f : EpFn → EpFn) : (s.modFn i f).fnAt i = f (s.fnAt i) := NMap.get_set_same ..
@[simp] theorem reg_setReg_same (r : RegName) (v : W64) (u i : Nat) : (s.setReg r v u i).reg r u i = v := NMap.get_set_same ..
theorem reg_setReg_ne (r q : RegName) (v : W64) (u i u' i' : Nat) (h : q.key u' i' ≠ r.key u i) :
    (s.setReg r v u i).reg q u' i' = s.reg q u' i' := NMap.get_set_ne' _ _ _ _ h
theorem reg_setRegF_same (r : RegName) (hi lo x u i : Nat) :
    (s.setRegF r hi lo x u i).reg r u i = setFld (s.reg r u i) hi lo x := NMap.get_set_same ..

/-- A unit is read from its own field: a write of another field does not change it. -/
theorem core_congr {s t : State} (h : s.cores = t.cores) (n : Nat) : s.core n = t.core n := by simp [core, h]
theorem pair_congr {s t : State} (h : s.pairs = t.pairs) (k : Nat) : s.pair k = t.pair k := by simp [pair, h]
theorem reg_congr {s t : State} (h : s.crs = t.crs) (r : RegName) (u i : Nat) : s.reg r u i = t.reg r u i := by simp [reg, h]
theorem mc_congr {s t : State} (h : s.mcs = t.mcs) (n : Nat) : s.mc n = t.mc n := by simp [mc, h]

end Sys2Proof.Machine.State
end

