-- ==== Sys2Proof/Laws/Counts.lean ====
section
/-! SUPPORT. What counting, sampling and retiring an instruction can change (16.1 to 16.4). -/

namespace Sys2Proof.Machine

/-! ## Cores alike -/

theorem Core.Alike.refl (c : Core) : Core.Alike c c := ⟨rfl, fun _ _ _ _ _ _ => rfl⟩

theorem Core.Alike.trans {a b c : Core} (h : Core.Alike a b) (h' : Core.Alike b c) : Core.Alike a c := by
  refine ⟨?_, fun w l i hl hi h20 => (h'.2 w l i hl hi h20).trans (h.2 w l i hl hi h20)⟩
  rw [h'.1, h.1]

theorem sysKey_lt (w : World) (l i : Nat) (hl : l < 4) (hi : i < 256) : sysKey w l i < 4096 := by
  unfold sysKey
  split <;> omega

theorem Core.alike_setErg (c : Core) (i : Nat) (v : W64) : Core.Alike c (c.setErg i v) := by
  refine ⟨rfl, fun w l j hl hj _ => ?_⟩
  exact NMap.get_set_ne' _ _ _ _ (by have := sysKey_lt w l j hl hj; omega)

theorem Core.alike_setPend (c : Core) (l v : Nat) (hl : l = 1 ∨ l = 2) (hv : v < 256) :
    Core.Alike c (c.setPend .openW l v) := by
  refine ⟨rfl, fun w k j hk hj h20 => ?_⟩
  refine NMap.get_set_ne' _ _ _ _ ?_
  have : v / 64 < 4 := by omega
  unfold sysKey
  cases w <;> simp only [isSealed, Bool.false_and, Bool.true_and, decide_eq_true_eq, Bool.false_eq_true, if_false]
  · rcases hl with rfl | rfl <;> omega
  · split <;> rcases hl with rfl | rfl <;> omega

/-! ## Unseen changes -/

theorem PairsAlike.refl (s : State) : PairsAlike s s := fun _ => rfl
theorem PairsAlike.trans {a b c : State} (h : PairsAlike a b) (h' : PairsAlike b c) : PairsAlike a c :=
  fun k => (h' k).trans (h k)

theorem Unseen.refl (n : Nat) (s : State) : Unseen n s s :=
  ⟨rfl, fun _ => .refl _, .refl _, fun _ _ => rfl⟩

theorem Unseen.trans {n : Nat} {a b c : State} (h : Unseen n a b) (h' : Unseen n b c) : Unseen n a c := by
  refine ⟨?_, fun m => (h.2.1 m).trans (h'.2.1 m), h.2.2.1.trans h'.2.2.1, fun k hk => (h'.2.2.2 k hk).trans (h.2.2.2 k hk)⟩
  rw [h'.1, h.1]

theorem unseen_setCore (n m : Nat) (s : State) (c : Core) (h : Core.Alike (s.core m) c) : Unseen n s (s.setCore m c) := by
  refine ⟨rfl, fun j => ?_, .refl _, fun _ _ => rfl⟩
  by_cases hj : j = m
  · subst hj; simpa using h
  · rw [State.core_setCore_ne _ _ hj]; exact .refl _

theorem unseen_modCore (n m : Nat) (s : State) (f : Core → Core) (h : Core.Alike (s.core m) (f (s.core m))) :
    Unseen n s (s.modCore m f) := unseen_setCore n m s _ h

theorem unseen_free (n : Nat) (s : State) (k : Nat) : Unseen n s { s with free := k } :=
  ⟨rfl, fun _ => .refl _, .refl _, fun _ _ => rfl⟩

theorem unseen_draw (n : Nat) (s : State) : Unseen n s s.draw.2 := unseen_free n s (s.free + 1)

/-! ## The fabric bank of the core's stop -/

/-- Keys of the four slots and the control registers of a bank lie in its 256 bytes. -/
theorem bank_key (r : RegName) (b : BankId) (i : Nat) (hr : r.place.block = .bank) (hi : r.place.off + r.place.stride * i < 0x100) :
    bankBase b ≤ r.key (bankBase b) i ∧ r.key (bankBase b) i < bankBase b + 0x100 := by
  unfold RegName.key
  revert hr hi
  generalize r.place = p
  generalize bankBase b = x
  intro hr hi
  obtain ⟨bl, off, stride, cnt⟩ := p
  subst hr
  show x ≤ x + off + stride * i ∧ x + off + stride * i < x + 0x100
  have hi : off + stride * i < 0x100 := hi
  omega

theorem unseen_setReg (n : Nat) (s : State) (r : RegName) (v : W64) (i : Nat) (hr : r.place.block = .bank)
    (hi : r.place.off + r.place.stride * i < 0x100) : Unseen n s (s.setReg r v (bankBase (.fabric (coreStop n))) i) := by
  refine ⟨rfl, fun _ => .refl _, .refl _, fun k hk => NMap.find?_set_ne _ _ _ ?_⟩
  have h := bank_key r (.fabric (coreStop n)) i hr hi
  have h' := hk (.fabric (coreStop n)) (List.mem_singleton.mpr rfl)
  omega

theorem unseen_raiseCx (n k i : Nat) (s : State) : Unseen n s (raiseCx k i s) := by
  refine ⟨rfl, fun _ => .refl _, fun j => ?_, fun _ _ => rfl⟩
  by_cases hj : j = k
  · subst hj; simp [raiseCx]
  · simp [raiseCx, State.pair_modPair_ne _ _ hj]

theorem unseen_ras (n : Nat) (s : State) (r : Ras) : Unseen n s { s with ras := r } :=
  ⟨rfl, fun _ => .refl _, .refl _, fun _ _ => rfl⟩

theorem placeRecord_lt (s : State) (b : BankId) (e : ErrRec) (k : Nat) :
    (placeRecord s b e = .merge k ∨ placeRecord s b e = .take k ∨ placeRecord s b e = .replace k) → k < 4 := by
  intro h
  unfold placeRecord at h
  simp only at h
  split at h
  · next x hx =>
    rcases h with h | h | h <;> cases h
    split at hx
    · exact List.mem_range.mp (List.mem_of_find?_eq_some hx)
    · cases hx
  · split at h
    · next x hx => rcases h with h | h | h <;> cases h; exact List.mem_range.mp (List.mem_of_find?_eq_some hx)
    · split at h
      · rcases h with h | h | h <;> cases h
        simp only [List.foldl_cons, List.foldl_nil]
        repeat' split
        all_goals omega
      · rcases h with h | h | h <;> cases h

theorem unseen_writeRecord (n : Nat) (s : State) (e : ErrRec) (k : Nat) (o : Bool) (hk : k < 4) :
    Unseen n s (writeRecord s (.fabric (coreStop n)) e k o) := by
  unfold writeRecord
  refine (((unseen_setReg n _ .ERR_STATUS _ k rfl ?_).trans (unseen_setReg n _ .ERR_ADDR _ k rfl ?_)).trans
    (unseen_setReg n _ .ERR_MISC _ k rfl ?_)).trans (unseen_setReg n _ .ERR_TIME _ k rfl ?_) <;>
  · simp only [RegName.place]; omega

theorem unseen_signalRecord (n : Nat) (s : State) (e : ErrRec) : Unseen n s (signalRecord (.fabric (coreStop n)) e s) := by
  unfold signalRecord
  simp only [reduceCtorEq, false_and, if_false]
  split
  · exact unseen_raiseCx ..
  · exact .refl ..

theorem unseen_takeInj (n : Nat) (s : State) (e : ErrRec) : Unseen n s (takeInj s (.fabric (coreStop n)) e).2 := by
  unfold takeInj
  split
  · exact unseen_setReg n _ .ERR_INJ _ 0 rfl (by simp [RegName.place])
  · exact .refl ..

theorem unseen_noteRecord (n : Nat) (s : State) (e : ErrRec) : Unseen n s (noteRecord (.fabric (coreStop n)) e s) := by
  unfold noteRecord
  simp only
  split
  · exact unseen_ras ..
  · exact .refl ..

theorem unseen_place (n : Nat) (s : State) (e : ErrRec) :
    Unseen n s (match placeRecord s (.fabric (coreStop n)) e with
      | .merge k => (s.bumpReg .ERR_STATUS 31 16 (bankBase (.fabric (coreStop n))) k).setReg .ERR_TIME (w64 (s.timeUs % 2 ^ 48))
          (bankBase (.fabric (coreStop n))) k
      | .take k => signalRecord (.fabric (coreStop n)) e (writeRecord s (.fabric (coreStop n)) e k false)
      | .replace k => signalRecord (.fabric (coreStop n)) e (writeRecord s (.fabric (coreStop n)) e k true)
      | .lost =>
        [0, 1, 2, 3].foldl (fun s k => s.setRegF .ERR_STATUS 62 62 1 (bankBase (.fabric (coreStop n))) k)
          (s.bumpReg .ERR_CTL 47 32 (bankBase (.fabric (coreStop n))))) := by
  have hp := placeRecord_lt s (.fabric (coreStop n)) e
  revert hp
  generalize placeRecord s (.fabric (coreStop n)) e = x
  intro hp
  cases x with
  | merge k =>
    have := hp k (.inl rfl)
    exact (unseen_setReg n _ .ERR_STATUS _ k rfl (by simp only [RegName.place]; omega)).trans
      (unseen_setReg n _ .ERR_TIME _ k rfl (by simp only [RegName.place]; omega))
  | take k => exact (unseen_writeRecord n s e k _ (hp k (.inr (.inl rfl)))).trans (unseen_signalRecord ..)
  | replace k => exact (unseen_writeRecord n s e k _ (hp k (.inr (.inr rfl)))).trans (unseen_signalRecord ..)
  | lost =>
    exact (unseen_setReg n _ .ERR_CTL _ 0 rfl (by simp [RegName.place])).trans
      ((((unseen_setReg n _ .ERR_STATUS _ 0 rfl (by simp [RegName.place])).trans
      (unseen_setReg n _ .ERR_STATUS _ 1 rfl (by simp [RegName.place]))).trans
      (unseen_setReg n _ .ERR_STATUS _ 2 rfl (by simp [RegName.place]))).trans
      (unseen_setReg n _ .ERR_STATUS _ 3 rfl (by simp [RegName.place])))

theorem unseen_record (n : Nat) (s : State) (e : ErrRec) : Unseen n s (record (.fabric (coreStop n)) e s) :=
  ((unseen_takeInj n s e).trans (unseen_noteRecord n _ _)).trans (unseen_place n _ _)

/-! ## Counting, sampling, retiring -/

theorem unseen_deliver (n v : Nat) (h : Bool) (s : State) :
    Unseen n s (deliver (coreStop n) n (if h then .openH else .openK) v s) := by
  unfold deliver
  split
  · exact unseen_record ..
  · cases h <;> simp only [if_true, if_false, Bool.false_eq_true]
    · exact unseen_modCore _ _ _ _ (Core.alike_setPend _ _ _ (.inl rfl) (Nat.mod_lt _ (by decide)))
    · exact unseen_modCore _ _ _ _ (Core.alike_setPend _ _ _ (.inr rfl) (Nat.mod_lt _ (by decide)))

theorem unseen_deliverK (n v : Nat) (s : State) : Unseen n s (deliver (coreStop n) n .openK v s) := unseen_deliver n v false s
theorem unseen_deliverH (n v : Nat) (s : State) : Unseen n s (deliver (coreStop n) n .openH v s) := unseen_deliver n v true s

/-- A core whose counters have moved, and an interrupt it may have been sent. -/
theorem unseen_wrap (n : Nat) (s : State) (c : Core) (h : Core.Alike (s.core n) c) (a b : Bool) (v w : Nat) :
    Unseen n s (if a then (if b then deliver (coreStop n) n .openK v (s.setCore n c) else deliver (coreStop n) n .openH w (s.setCore n c))
      else s.setCore n c) := by
  have h := unseen_setCore n n s c h
  cases a <;> cases b <;> simp only [if_true, if_false, Bool.false_eq_true]
  · exact h
  · exact h
  · exact h.trans (unseen_deliverH ..)
  · exact h.trans (unseen_deliverK ..)

theorem unseen_ergAdd (n i k : Nat) (s : State) : Unseen n s (ergAdd n i k s) := by
  unfold ergAdd
  simp only
  split
  · exact unseen_setCore _ _ _ _ (Core.alike_setErg ..)
  · refine unseen_wrap n s _ ?_ _ _ _ _
    split
    · exact ((Core.alike_setErg ..).trans (Core.alike_setErg ..)).trans (Core.alike_setErg ..)
    · exact (Core.alike_setErg ..).trans (Core.alike_setErg ..)

theorem unseen_foldl {α : Type} (n : Nat) (f : State → α → State) (h : ∀ s a, Unseen n s (f s a)) (l : List α) :
    ∀ s, Unseen n s (l.foldl f s) := by
  induction l with
  | nil => exact fun s => .refl n s
  | cons a l ih => exact fun s => (h s a).trans (ih _)

theorem unseen_ergEvent (n : Nat) (c : Core) (ev : Nat) (kase : Option Nat) (k : Nat) (s : State) :
    Unseen n s (ergEvent n c ev kase k s) := by
  unfold ergEvent
  split
  · exact .refl ..
  · apply unseen_foldl
    intro s i
    simp only
    split
    · exact unseen_ergAdd ..
    · exact .refl ..

theorem Core.alike_smp (c : Core) (m : Sampler) : Core.Alike c { c with smp := m } := ⟨rfl, fun _ _ _ _ _ _ => rfl⟩

theorem unseen_smpNotify (n : Nat) (s : State) : Unseen n s (smpNotify n s) := by
  unfold smpNotify
  simp only
  split
  · exact unseen_deliverK ..
  · exact unseen_deliverH ..

theorem unseen_smpLost (n : Nat) (s : State) : Unseen n s (smpLost n s) :=
  unseen_modCore _ _ _ _ (Core.alike_setErg ..)

/-- A record enters the buffer, and may notify. -/
theorem unseen_smpPut (n : Nat) (s : State) (w : List W64) (P : State → Prop) [∀ s, Decidable (P s)] :
    Unseen n s (if P (s.modCore n fun k => { k with smp := { k.smp with recs := k.smp.recs ++ [w], seq := k.smp.seq + 1 } }) then
        smpNotify n (s.modCore n fun k => { k with smp := { k.smp with recs := k.smp.recs ++ [w], seq := k.smp.seq + 1 } })
      else s.modCore n fun k => { k with smp := { k.smp with recs := k.smp.recs ++ [w], seq := k.smp.seq + 1 } }) := by
  have h := unseen_modCore n n s (fun k => { k with smp := { k.smp with recs := k.smp.recs ++ [w], seq := k.smp.seq + 1 } })
    (Core.alike_smp ..)
  split
  · exact h.trans (unseen_smpNotify ..)
  · exact h

theorem unseen_sampleRecord (n : Nat) (c : Core) (r : Retired) (kind : Nat) (s : State) :
    Unseen n s (sampleRecord n c r kind s) := by
  unfold sampleRecord
  split
  · exact unseen_smpLost ..
  · split
    · exact unseen_smpLost ..
    · exact ((unseen_draw n s).trans (unseen_draw n _)).trans (unseen_smpPut n _ _ fun s =>
        min 64 (fld ((s.core n).erg 0x60) 6 0) ≠ 0 ∧ min 64 (fld ((s.core n).erg 0x60) 6 0) ≤ (s.core n).smp.recs.length)

theorem unseen_sampleUops (n : Nat) (c : Core) (r : Retired) (kind : Nat) (s : State) :
    Unseen n s (sampleUops n c r kind s) := by
  unfold sampleUops
  simp only
  split
  · exact .refl ..
  · have h : Unseen n s (if (s.core n).smp.count ≤ (s.core n).smp.tag ∧ (s.core n).smp.tag < (s.core n).smp.count + r.uops
        then sampleRecord n c r kind s else s) := by
      split
      · exact unseen_sampleRecord ..
      · exact .refl ..
    split
    · exact h.trans (unseen_modCore _ _ _ _ (Core.alike_smp ..))
    · exact (h.trans (unseen_draw n _)).trans (unseen_modCore _ _ _ _ (Core.alike_smp ..))

theorem unseen_if (n : Nat) (s : State) (p : Prop) [Decidable p] (f : State → State) (h : Unseen n s (f s)) :
    Unseen n s (if p then f s else s) := by
  split
  · exact h
  · exact .refl ..

/-- Retiring an instruction changes nothing a program sees but counters, samples and the interrupts they raise. -/
theorem unseen_retire (n : Nat) (c : Core) (r : Retired) (s : State) : Unseen n s (retire n c r s) :=
  ((((unseen_ergEvent n c 0x005 (some 0) r.uops s).trans (unseen_ergEvent n c 0x002 none r.uops _)).trans
    (unseen_ergEvent n c 0x001 none 1 _)).trans
    ((unseen_if n _ (0 < r.src ∧ r.src < 9 ∧ r.cls = 2) (ergEvent n c 0x006 (some r.src) 1) (unseen_ergEvent ..)).trans
      (unseen_if n _ (r.tlb = 2 ∨ r.tlb = 3) (ergEvent n c 0x007 (some (r.tlb - 2)) 1) (unseen_ergEvent ..)))).trans
    (unseen_sampleUops n c r 0 _)

/-- So does discarding one. -/
theorem unseen_discard (n : Nat) (c : Core) (r : Retired) (s : State) : Unseen n s (discard n c r s) :=
  ((unseen_ergEvent ..).trans (unseen_ergEvent ..)).trans (unseen_sampleUops ..)

/-- What follows from the registers at the end of a command is an input of CX3. -/
theorem unseen_settle (n : Nat) (s : State) : Unseen n s (settle s) := by
  refine ⟨rfl, fun _ => .refl _, fun j => ?_, fun _ _ => rfl⟩
  by_cases hj : j = 3
  · subst hj; simp [settle]
  · simp [settle, State.pair_modPair_ne _ _ hj]

end Sys2Proof.Machine
end

