-- ==== Sys2Proof/Laws/Answer.lean ====
section
/-! SUPPORT. What every command leaves at its end, and what the shared forms of instructions leave: to be cited instead of unfolding
`exec`, `answer` and `settle`. -/

namespace Sys2Proof.Machine

/-! ## The end of a command -/

/-- Every command ends with `answer`: it never faults and is never refused. -/
theorem exec_answers (c : Instr) (s : State) : ∃ u, exec c s = answer s u := by
  cases c <;> exact ⟨_, rfl⟩

theorem step_nil (s : State) (h : s.pending = []) : step s = tick s := by rw [step, h]

theorem step_cons (s : State) (c : Instr) (rest : List Instr) (h : s.pending = c :: rest) :
    step s = exec c { s with pending := rest } := by rw [step, h]

theorem answer_next (s₀ s : State) : answer s₀ s = .next { settle s with pending := s₀.pending } := rfl

@[simp] theorem settle_pending (s : State) : (settle s).pending = s.pending := rfl
@[simp] theorem settle_crs (s : State) : (settle s).crs = s.crs := rfl
@[simp] theorem settle_cores (s : State) : (settle s).cores = s.cores := rfl
@[simp] theorem settle_tcm (s : State) : (settle s).tcm = s.tcm := rfl
@[simp] theorem settle_lines (s : State) : (settle s).lines = s.lines := rfl
@[simp] theorem settle_dir (s : State) : (settle s).dir = s.dir := rfl
@[simp] theorem settle_homes (s : State) : (settle s).homes = s.homes := rfl
@[simp] theorem settle_dram (s : State) : (settle s).dram = s.dram := rfl
@[simp] theorem settle_lmeta (s : State) : (settle s).lmeta = s.lmeta := rfl
@[simp] theorem settle_mcs (s : State) : (settle s).mcs = s.mcs := rfl
@[simp] theorem settle_keys (s : State) : (settle s).keys = s.keys := rfl
@[simp] theorem settle_fab (s : State) : (settle s).fab = s.fab := rfl
@[simp] theorem settle_sweep (s : State) : (settle s).sweep = s.sweep := rfl
@[simp] theorem settle_io (s : State) : (settle s).io = s.io := rfl
@[simp] theorem settle_fin (s : State) : (settle s).fin = s.fin := rfl
@[simp] theorem settle_power (s : State) : (settle s).power = s.power := rfl
@[simp] theorem settle_boot (s : State) : (settle s).boot = s.boot := rfl
@[simp] theorem settle_ras (s : State) : (settle s).ras = s.ras := rfl
@[simp] theorem settle_sec (s : State) : (settle s).sec = s.sec := rfl
@[simp] theorem settle_pins (s : State) : (settle s).pins = s.pins := rfl

/-- The pairs differ in the interrupt inputs of CX3 at most. -/
theorem pairsAlike_settle (s : State) : PairsAlike s (settle s) := by
  intro k
  unfold settle
  by_cases h : k = 3
  · subst h; rw [State.pair_modPair_same]
  · rw [State.pair_modPair_ne s _ h]

/-- What a command's effect is, it ends in, but for the inputs of CX3. -/
theorem answer_settles (s₀ s : State) :
    ∃ t, answer s₀ s = .next t ∧ t = { s with pairs := t.pairs, pending := t.pending } ∧ PairsAlike s t :=
  ⟨_, answer_next s₀ s, rfl, pairsAlike_settle s⟩

/-! ## Instructions of a main core -/

theorem onCore_ready (n : Nat) (f : State → State) (s : State) (h : coreReady s n = true) : onCore n f s = f s := by
  rw [onCore, if_pos h]

theorem onCore_not (n : Nat) (f : State → State) (s : State) (h : coreReady s n = false) : onCore n f s = s := by
  rw [onCore, if_neg (by rw [h]; decide)]

/-- The queue is no part of what monitoring leaves. -/
theorem unseen_pending (n : Nat) {s t : State} (q : List Instr) (h : Unseen n s t) : Unseen n s { t with pending := q } := by
  obtain ⟨a, b, c, d⟩ := h
  refine ⟨?_, b, c, d⟩
  rw [a]

/-- What monitoring of core `n` leaves stays so to the end of the command. -/
theorem unseen_answer (n : Nat) {s₀ s t : State} (h : Unseen n s t) : ∃ u, answer s₀ t = .next u ∧ Unseen n s u :=
  ⟨_, answer_next s₀ t, unseen_pending n _ (h.trans (unseen_settle n t))⟩

/-- An instruction that changes registers of a running core and falls through does that, and nothing else a program sees. -/
theorem coreResult_next (n cls : Nat) (f : Core → Core) (s : State) (h : coreReady s n = true) :
    ∃ t, answer s (coreResult n cls f s) = .next t ∧ Unseen n (s.setCore n (f (s.core n)).advance) t := by
  rw [coreResult, onCore_ready _ _ _ h]
  exact unseen_answer n (unseen_retire ..)

/-! ## Instructions of a pair -/

/-- A pair that is ready, whose line is at hand, whose fields name registers and wait for no load, does what the instruction says. -/
theorem onPair_ready (k : Nat) (reads writes : List RegNo) (f : State → State) (s : State) (h : pairReady s k = true)
    (hf : cxFetch (s.modPair k fun p => { p with waiting := false }) k = .ready) (hb : (reads ++ writes).any fieldBad = false)
    (hs : ((s.modPair k fun p => { p with waiting := false }).pair k).stalls reads writes = false) :
    onPair k reads writes f s = f (s.modPair k fun p => { p with waiting := false }) := by
  simp only [onPair, h, hf, hb, hs, Bool.not_true, Bool.false_eq_true, if_false]

theorem onPair_not (k : Nat) (reads writes : List RegNo) (f : State → State) (s : State) (h : pairReady s k = false) :
    onPair k reads writes f s = s := by
  simp only [onPair, h, Bool.not_false, if_true]

end Sys2Proof.Machine
end

