-- ==== Sys2Proof/Laws/Memory.lean ====
section
/-! SUPPORT. Memory: a byte reads as last written, and every operation keeps the canonical form. -/

namespace Sys2Proof.Machine

/-! ## Bytes -/

theorem readCell_writeCell (m : List Host.Cell) (a q : Nat) (b : Byte) :
    readCell (writeCell m a b) q = if q = a then b else readCell m q := NMap.get_set ..

@[simp] theorem readCell_writeCell_same (m : List Host.Cell) (a : Nat) (b : Byte) : readCell (writeCell m a b) a = b := by
  simp [readCell_writeCell]

theorem readCell_writeCells_ne (bs : List Byte) (m : List Host.Cell) {a q : Nat} (h : q < a ∨ a + bs.length ≤ q) :
    readCell (writeCells m a bs) q = readCell m q := by
  induction bs generalizing m a with
  | nil => rfl
  | cons b bs ih =>
    simp only [List.length_cons] at h
    rw [writeCells, ih _ (by omega), readCell_writeCell, if_neg (by omega)]

theorem readCell_writeCells (bs : List Byte) (m : List Host.Cell) {a i : Nat} (h : i < bs.length) :
    readCell (writeCells m a bs) (a + i) = bs[i] := by
  induction bs generalizing m a i with
  | nil => simp at h
  | cons b bs ih =>
    cases i with
    | zero => simp [writeCells, readCell_writeCells_ne bs _ (a := a + 1) (q := a) (by omega)]
    | succ i =>
      have := ih (writeCell m a b) (a := a + 1) (i := i) (by simpa using h)
      simpa [writeCells, Nat.add_comm, Nat.add_left_comm] using this

/-! ## The canonical form -/

theorem wf_writeCell (m : List Host.Cell) (a : Nat) (b : Byte) (h : Memory.wf m = true) : Memory.wf (writeCell m a b) = true :=
  NMap.wf_set _ _ _ _ h

theorem wf_writeCells (bs : List Byte) (m : List Host.Cell) (a : Nat) (h : Memory.wf m = true) :
    Memory.wf (writeCells m a bs) = true := by
  induction bs generalizing m a with
  | nil => exact h
  | cons b bs ih => exact ih _ _ (wf_writeCell _ _ _ h)

theorem wf_foldl {α : Type} (f : List Host.Cell → α → List Host.Cell) (hf : ∀ d x, Memory.wf d = true → Memory.wf (f d x) = true)
    (l : List α) : ∀ d, Memory.wf d = true → Memory.wf (l.foldl f d) = true := by
  induction l with
  | nil => exact fun _ h => h
  | cons x l ih => exact fun d h => ih _ (hf d x h)

theorem wf_forgetCells (n : Nat) (m : List Host.Cell) (h : Memory.wf m = true) : Memory.wf (forgetCells n m) = true := by
  refine wf_foldl _ (fun d c hd => ?_) m m h
  generalize channelCell c.1 = b
  cases b
  · exact hd
  · exact wf_writeCell _ _ _ hd

/-! ## The operations on a state that write memory -/

theorem wf_nil : Memory.wf [] = true := rfl

theorem wf_reset : Memory.wf State.reset.dram = true := wf_nil

/-- Either state that a condition picks has the memory, so what is picked has. -/
theorem dram_ite (c : Prop) [Decidable c] (s f g : State) (h : f.dram = s.dram) (h' : g.dram = s.dram) :
    (if c then f else g).dram = s.dram := by
  split
  · exact h
  · exact h'

theorem wf_ite (c : Prop) [Decidable c] (f g : State) (h : Memory.wf f.dram = true) (h' : Memory.wf g.dram = true) :
    Memory.wf (if c then f else g).dram = true := by
  split
  · exact h
  · exact h'

@[simp] theorem countKey_dram (b : Bool) (s : State) : (countKey b s).dram = s.dram := by
  rw [countKey]
  exact dram_ite _ s _ _ (State.bumpReg_dram ..) (State.bumpReg_dram ..)

/-- A write of a line leaves every cell, or writes the line's 64. -/
theorem dramWrite_dram (ch loc pal key : Nat) (d : Line) (p : Bool) (s : State) :
    (dramWrite ch loc pal key d p s).dram = s.dram ∨
      (dramWrite ch loc pal key d p s).dram = writeCells s.dram (cellLine ch loc * 64) (lineBytes d) := by
  unfold dramWrite
  by_cases h : key = 0
  · right; simp only [h, if_true]
  · simp only [h, if_false]
    cases keySlot s ch key with
    | loaded k => right; simp only
    | empty => left; simp only [countKey_dram]
    | erased => left; simp only [countKey_dram]

theorem wf_dramWrite (ch loc pal key : Nat) (d : Line) (p : Bool) (s : State) (h : Memory.wf s.dram = true) :
    Memory.wf (dramWrite ch loc pal key d p s).dram = true := by
  obtain e | e := dramWrite_dram ch loc pal key d p s
  · rw [e]; exact h
  · rw [e]; exact wf_writeCells _ _ _ h

theorem wf_copyLine (src dst loc : Nat) (s : State) (h : Memory.wf s.dram = true) : Memory.wf (copyLine src dst loc s).dram = true :=
  wf_writeCells _ _ _ h

theorem wf_poisonLine (mc loc : Nat) (s : State) (h : Memory.wf s.dram = true) : Memory.wf (poisonLine mc loc s).dram = true := h

theorem wf_memStoreAt (c loc line key : Nat) (d : Line) (p : Bool) (s : State) (h : Memory.wf s.dram = true) :
    Memory.wf (memStoreAt c loc line key d p s).dram = true := by
  rw [memStoreAt]
  cases writeEntry s c line with
  | some e => simpa only [State.modMc_dram] using h
  | none => exact wf_dramWrite _ _ _ _ _ _ _ h

/-- A write by an agent that keeps no copy keeps the canonical form (R285, R306). -/
theorem wf_memStore (line key : Nat) (d : Line) (p : Bool) (s : State) (h : Memory.wf s.dram = true) :
    Memory.wf (memStore line key d p s).dram = true := by
  rw [memStore]
  cases memOf s 0x02 line with
  | none =>
    cases cxlCell s line with
    | none => exact h
    | some l => exact wf_writeCells _ _ _ h
  | some e =>
    dsimp only
    refine wf_ite _ _ _ ?_ ?_
    · exact wf_memStoreAt _ _ _ _ _ _ _ (wf_memStoreAt _ _ _ _ _ _ _ h)
    · exact wf_memStoreAt _ _ _ _ _ _ _ h

/-! ## Reset -/

/-- What every round leaves, a fold leaves. -/
theorem dram_foldl {α : Type} (f : State → α → State) (hf : ∀ s x, (f s x).dram = s.dram) (l : List α) :
    ∀ s, (l.foldl f s).dram = s.dram := by
  induction l with
  | nil => exact fun _ => rfl
  | cons x l ih => exact fun s => (ih _).trans (hf s x)

@[simp] theorem takeOut_dram (x : Resource) (s : State) : (takeOut x s).dram = s.dram := by
  cases x with
  | tile t =>
    rw [takeOut]
    refine dram_ite _ s _ _ rfl ((State.setRegF_dram ..).trans ?_)
    exact dram_ite _ s _ _ (State.setRegF_dram ..) (State.setRegF_dram ..)
  | channel n => exact dram_ite _ s _ _ rfl ((State.setRegF_dram ..).trans (State.setRegF_dram ..))
  | sweep n => exact dram_ite _ s _ _ rfl (State.setRegF_dram ..)
  | io n => exact dram_ite _ s _ _ rfl ((State.setRegF_dram ..).trans (State.setRegF_dram ..))

@[simp] theorem defaultRoutes_dram (s : State) : (defaultRoutes s).dram = s.dram := by
  rw [defaultRoutes]
  exact dram_ite _ s _ _ rfl (dram_foldl _ (fun s _ => dram_foldl _ (fun s _ => State.setReg_dram ..) _ s) _ s)

/-- A reset forgets the cells of DRAM, but for a Catch reset. -/
theorem afterReset_dram (s : State) (k : ResetKind) :
    (s.afterReset k).dram = if decide (k = .ctch) then s.dram else forgetCells s.free s.dram := by
  rw [State.afterReset]
  dsimp only [State.modHomes]
  refine (dram_foldl _ (fun s n => takeOut_dram (.tile n) s) _ _).trans ?_
  generalize hd : (if decide (k = .ctch) = true then s.dram else forgetCells s.free s.dram) = d
  split
  · split
    · rfl
    · exact dram_foldl _ (fun s n => takeOut_dram (.tile n) s) _ _
  · refine (defaultRoutes_dram _).trans ?_
    split
    · rfl
    · exact dram_foldl _ (fun s n => takeOut_dram (.tile n) s) _ _

theorem wf_afterReset (s : State) (k : ResetKind) (h : Memory.wf s.dram = true) : Memory.wf (s.afterReset k).dram = true := by
  rw [afterReset_dram]
  split
  · exact h
  · exact wf_forgetCells _ _ h

end Sys2Proof.Machine
end

