-- ==== Sys2Proof/Tests/Slice0.lean ====
section
/-! SUPPORT. Tests: commands that WellFormed refuses, single steps on small states, and for each obligation with hypotheses states and
operands that meet them, at the ends of their ranges. -/

open Sys2Proof Sys2Proof.Machine Sys2Proof.Claims

namespace Sys2Proof.Tests

set_option Elab.async false

/-! ## Small helpers -/

/-- The state that a command leaves, or reset for one that stops. -/
def after (i : Instr) (s : State) : State :=
  match step { s with pending := [i] } with
  | .next t => t
  | _ => .reset

/-- None of the commands is well-formed. -/
def refusesAll (is : List Instr) : Bool := is.all fun i => !WellFormed i

/-- A corrected error of unit 0 in stop 0. -/
def aRecord : ErrRec := ⟨.corrected, none, none, false, false, 0, 0, 0, 0⟩

/-! ## WellFormed refuses a command for each check that it makes -/

theorem test_ill_formed_agents : refusesAll
    [.add (.core 144) 1 2 3, .add (.cx 4) 1 2 3, .interruptEntry 144, .spill 4, .reachRead 0 4 0, .lockstepMismatch 4] = true := by decide

theorem test_ill_formed_requesters : refusesAll
    [.pwrRstWarm (.core 144 .F .openW), .pwrRstWarm (.cx 4), .pwrRstWarm (.io 12), .registerWrite .debug (2 ^ 32) 0,
     .regrd .debug 0 4096] = true := by decide

theorem test_ill_formed_units : refusesAll
    [.backgroundClean (.l1i 144), .backgroundClean (.l1d 144), .backgroundClean (.l2 144), .backgroundClean (.l3 72), .backgroundClean (.cxI 4),
     .backgroundClean (.cxD 4), .ceWindowRoll (.l2 0) 16, .potinv (.core 144), .potinv (.cx 4), .potinv (.iotu 12), .potinv (.sweep 16),
     .errorRecord (.core 144) aRecord, .errorRecord (.tile 72) aRecord, .errorRecord (.mc 16) aRecord, .errorRecord (.io 12) aRecord,
     .errorRecord (.sv 4) aRecord, .errorRecord (.fabric 0x8D) aRecord, .counterOverflow (.core 144) 0, .counterOverflow (.tile 72) 0,
     .counterOverflow (.mc 16) 0, .counterOverflow (.io 12) 0, .counterOverflow (.probe 0x80) 0, .counterOverflow (.core 0) 9] = true := by
  decide

theorem test_ill_formed_resources : refusesAll
    [.resourceOutOfService (.cx 0) (.tile 72), .resourceOutOfService (.cx 0) (.channel 16), .resourceOutOfService (.cx 0) (.sweep 16),
     .resourceOutOfService (.cx 0) (.io 12)] = true := by decide

theorem test_ill_formed_fabric : refusesAll
    [.islandReady 0x80, .islandReady 0x0D, .niRtWrite .debug 0 256 0, .cmp 0 4096, .rddev 0 0 (2 ^ 52) 8, .intr 0 0 .openK 256,
     .samEntryWrite (.cx 0) .RADDR 32 0] = true := by decide

theorem test_ill_formed_memory : refusesAll
    [.rds 0 (2 ^ 46) 0, .rds 0 0 4096, .tagrecov 72 0 0, .tagrecov 0 0 1024, .shinc 16 0, .refreshDue 0 2, .softPpr 0 16 0 0,
     .softPpr 0 0 32 0, .sparingCopyEnd 0 16 0, .keyLoad (.cx 0) 4096] = true := by decide

theorem test_ill_formed_sweep : refusesAll [.jobStart 16, .jobEnd 1024, .ucodeRet 16 0] = true := by decide

theorem test_ill_formed_power_and_io : refusesAll
    [.domainBringupStep 16, .gpioWake 32, .tileRelease (.cx 0) 72, .linkDown 12 0, .linkDown 0 4, .hVheldpMove 0 16 0, .muxFnWrite (.cx 0) 10 0,
     .pinSwitchComplete 32, .rasRecordService (.mc 0) 4] = true := by decide

/-- The last unit of each kind is one the part has. -/
theorem test_well_formed_last_units :
    ([.add (.core 143) 1 2 3, .spill 3, .pwrRstWarm (.io 11), .registerWrite .debug (2 ^ 32 - 1) 0, .backgroundClean (.l3 71), .potinv (.sweep 15),
      .islandReady 0x7C, .niRtWrite .debug 0 255 0, .rds 143 (2 ^ 46 - 1) 4095, .jobEnd 1023, .linkDown 11 3] : List Instr).all WellFormed = true := by
  decide

/-! ## Small states -/

/-- Core 0 runs at its reset values, changed by `f`. -/
def withCore (f : Core → Core) : State := State.reset.setCore 0 (f { Core.cold with run := .running })

/-- A 4 KiB page of core 0 at level F, at its own physical address, held by both L1 TLBs. -/
def page (va : Nat) (mt : MemType) : TlbEnt :=
  ⟨.untranslated, none, va, 12, 12, 12, va, va, mt, 0, true, true, true, true, true, true, true, true, true, true⟩

/-- The first page as VMID 0 sees it, closed to level U. -/
def guestPage : TlbEnt := { page 0 .writeBack with regime := .guest 0, gu := false }

/-- Code from 0x1000 on, data in write-back memory at 0, and a device at 0x2000. -/
def pages : List TlbEnt := [page 0 .writeBack, page 0x1000 .writeBack, page 0x2000 .device, guestPage]

/-- A line as the caches of core 0 hold it in state M. -/
def dirty (line : Nat) (d : Line) : CLine := ⟨line, 0, .M, d, false, 0, false⟩

/-- Core 0 with those pages, the pc in the code page, and line 0 in its L1D and L2. -/
def inL1 (f : Core → Core) : State :=
  { withCore fun c => f { c with tlb := pages, pc := 0x1000 } with
    lines := [(wayKey (.l1d 0) 0 0, dirty 0 0xF080), (wayKey (.l2 0) 0 0, dirty 0 0xF080)] }

/-- Region 0 of the map: the first 1 GiB, on channel 0, all of it page state 0 but for the POT entries `es` that stand from address
0 on. -/
def mapped (m : List Host.Cell) : State :=
  { ((State.reset.setReg .SAM_RADDR (w64 (2 ^ 63 + 2 ^ 32)) 0 0).setReg .SAM_RCFG 1 0 0) with dram := m }

/-- Pair 0 after reset, changed by `f`. -/
def withPair (f : Pair → Pair) : State := State.reset.setPair 0 (f (Pair.start 0))

def atWindow (w : Nat) (frames : List Nat) : State := withPair fun p => { p with cwp := w, frames := frames }

def retired : Hint := ⟨false, .retired⟩
def cleanOp (kind : MemKind) (va : W64) (size : Nat) (dev acq : Bool) : MemOp := ⟨kind, va, size, false, dev, acq⟩


/-! ## Witnesses: instructions (chapters 02 to 04, 10) -/

theorem witness_EmptyQueueTicks : State.reset.pending = [] ∧ State.reset.power.off = false := by decide +kernel

/-- Also CoreCounts, VectorElements, VectorReductionsAndPredicates and CoreSystemRegisters, the clauses of which the next ones meet. -/
theorem witness_CoreIntegerResults : coreReady (withCore id) 0 = true := by decide +kernel

theorem witness_FloatingPoint : coreReady (withCore id) 0 = true ∧ (1#2 ≠ 0) := by decide +kernel

/-- Both operands NaN, at each format, a quiet one and one with a set sign. -/
theorem witness_DefaultNaN : (0x7C00 < 0x7E00 % 2 ^ 15 ∧ 0x7C00 < 0xFC01 % 2 ^ 15) ∧ 0x7F800000 < 0xFF800001 % 2 ^ 31 ∧
    0x7FF0000000000000 < 0xFFF8000000000000 % 2 ^ 63 := by decide +kernel

/-- An active and an inactive element, and none active. -/
theorem witness_VectorElements :
    let c := (withCore fun c => c.setP 1 1).core 0
    (c.getP 1).getLsbD 0 = true ∧ (c.getP 1).getLsbD 1 = false ∧ (∀ j < 32, (c.getP 2).getLsbD j = false) ∧
    (31#5).toNat < lanes 0 ∧ lanes 3 ≤ (4#5).toNat := by decide +kernel

theorem witness_PairIntegerResults : PairTakes State.reset 0 [1, 23] [3] ∧ (State.reset.pair 0).div = none := by
  unfold PairTakes; decide +kernel

/-- Taken and not; a target that may be fetched and one whose translation is not at hand. -/
theorem witness_CoreBranches :
    let s := inL1 id
    coreReady s 0 = true ∧ LandsAt s 0 0x1004 ∧ LandsAt s 0 0x4000 ∧ (s.core 0).getG 0 = (s.core 0).getG 1 ∧
    ¬(s.core 0).getG 0 ≠ (s.core 0).getG 1 ∧ ((s.core 0).getG 0 + (0x1004#14).signExtend 64).toNat % 4 = 0 := by
  refine ⟨by decide +kernel, fun e h => ?_, fun e h => ?_, by decide +kernel, by decide +kernel, by decide +kernel⟩
  · have hit : tlbHit (inL1 id) 0 (coreCtx (inL1 id) 0 ((inL1 id).core 0).level) (0x1004 : W64).toNat = some (page 0x1000 .writeBack) := by
      decide +kernel
    cases hit.symm.trans h; decide +kernel
  · have hit : tlbHit (inL1 id) 0 (coreCtx (inL1 id) 0 ((inL1 id).core 0).level) (0x4000 : W64).toNat = none := by decide +kernel
    cases hit.symm.trans h

/-- Window 7 calls into window 1; a return from window 1 goes to window 7. -/
theorem witness_PairBranches :
    PairTakes (atWindow 7 []) 0 [] [] ∧ ((atWindow 7 []).pair 0).frames.length < 2 ∧ ((atWindow 7 []).pair 0).cwp ≠ 0 ∧
    PairTakes (atWindow 1 [7]) 0 [] [] ∧ ((atWindow 1 [7]).pair 0).frames = [] ++ [7] ∧ (((atWindow 1 [7]).pair 0).getW 1 15).toNat % 4 = 0 ∧
    PairTakes State.reset 0 [8, 9] [] ∧ PairTakes State.reset 0 [8] [23] := by
  unfold PairTakes; decide +kernel

/-- The last slot of a spill area of one unit: a call with two frames, and a return of the frame in it. -/
theorem witness_PairSpillAndFill :
    let area := fun (p : Pair) => { p with eff := [(0x10, 0x10000#32)] }
    let a := withPair fun p => { area p with cwp := 3, frames := [1, 2] }
    let b := withPair fun p => { area p with depth := 1 }
    PairTakes a 0 [] [] ∧ (a.pair 0).spillBase + (a.pair 0).depth < (a.pair 0).spillLimit ∧ (a.pair 0).frames = 1 :: [2] ∧
    PairTakes b 0 [] [] ∧ (b.pair 0).frames = [] ∧ (b.pair 0).depth = 0 + 1 ∧ (b.pair 0).spillBase + 0 < (b.pair 0).spillLimit ∧
    ((b.pair 0).getW 1 15).toNat % 4 = 0 := by
  unfold PairTakes; decide +kernel

/-- Level F takes its own trap at offset 0x100. -/
theorem witness_CoreTraps :
    TrapReady (inL1 id) 0 ∧ Fetches (inL1 id) 0 (entered .F 0x100 0x301 0 ((inL1 id).core 0)) ∧
    (((inL1 id).core 0).getG 0 + (2#14).signExtend 64).toNat % 4 ≠ 0 :=
  ⟨by unfold TrapReady; decide +kernel, ⟨page 0 .writeBack, by decide +kernel⟩, by decide +kernel⟩

/-- Level U goes up to K at offset 0; sealed K keeps its level; level H is between; a register that does not exist and one of level H. -/
theorem witness_PrivilegeTraps :
    let u := inL1 fun c => { c with level := .U, sysr := [(sysKey .openW 0 0, 0x30)] }
    let k := inL1 fun c => { c with level := .K, world := .sealedW }
    TrapReady u 0 ∧ Fetches u 0 (entered .K 0 0x302 0 (u.core 0)) ∧ levelNum (u.core 0).level < ((u.core 0).sys .openW 0 0).toNat / 16 % 4 ∧
    TrapReady k 0 ∧ Fetches k 0 (entered .K 0x100 0x301 0 (k.core 0)) ∧
    sysExists 1 0x7 = false ∧ sysExists 2 0 = true :=
  ⟨by unfold TrapReady; decide +kernel, ⟨guestPage, by decide +kernel⟩, by decide +kernel, by unfold TrapReady; decide +kernel,
    ⟨guestPage, by decide +kernel⟩, by decide +kernel, by decide +kernel⟩

/-- A pair traps from window 7, halts in window 0, and returns to window 7. -/
theorem witness_PairTrapsAndReturns :
    PairTrapReady (atWindow 7 []) 0 ∧ PairTakes (atWindow 0 []) 0 [] [] ∧
    (let s := atWindow 1 [7]
     PairTakes s 0 [] [] ∧ (s.pair 0).worldT = false ∧ (s.pair 0).frames = [] ++ [7] ∧ ((s.pair 0).getW 1 13).getLsbD 31 = false) := by
  unfold PairTrapReady PairTakes; decide +kernel

/-- F_STATUS, K_COREID, the sealed K_CTL, H_VSEND, an interrupt word and an Erg register, read and written. -/
theorem witness_CoreSystemRegisters :
    let c := (withCore id).core 0
    let k := (withCore fun c => { c with level := .K, world := .sealedW }).core 0
    sysFault c 3 0 false = none ∧ sysFault c 3 0 true = none ∧ sysFault c 1 0x10 false = none ∧ sysFault k 1 0x0A false = none ∧
    sysFault k 1 0x0A true = none ∧ sysFault c 2 0x2A false = none ∧ sysFault c 2 0x20 true = none ∧ sysFault c 2 0x28 true = none ∧
    sysFault c 3 0x41 false = none ∧ (nonInvasive (withCore fun c => { c with world := .sealedW }) k = false ∨ nonInvasive (withCore id) c = false) := by
  decide +kernel


/-- TRET to the same level; a level below F for WFI is not needed, F itself may wait. -/
theorem witness_CoreSyncAndReturn :
    let s := withCore fun c => { c with sysr := [(sysKey .openW 3 0, 0x30)] }
    coreReady s 0 = true ∧ syncBlocked s 0 = false ∧ (s.core 0).sq = [] ∧ levelNum (s.core 0).level ≠ 0 ∧
    ((s.core 0).sys .openW 3 0).toNat / 16 % 4 ≤ levelNum (s.core 0).level := by decide +kernel

/-- The last register and none after it; world T, in a TCM segment, may not write CX_STATUS. -/
theorem witness_PairSystem :
    PairTakes State.reset 0 [] [8] ∧ cxExists 0x10 = true ∧ cxExists 0xBF = true ∧ cxExists 0xC0 = false ∧ cxExists 3 = false ∧
    PairTakes State.reset 0 [8] [] ∧ PairTrapReady (atWindow 7 []) 0 ∧ (fieldBad 8 = false ∧ ((atWindow 7 []).pair 0).stalls [8] [8] = false) ∧
    (let t := withPair fun p => { p with cwp := 7, pc := 0, eff := [(0, 0x80#32), (0x80, 0x49)] }
     PairTrapReady t 0 ∧
     (t.pair 0).worldT = true ∧ cxOpenT 0 true = false ∧ cxOpenT 0x28 true = true) ∧
    (State.reset.fab.outs.any fun o => o.who == .pair 0 && o.op == .WrPtl) = false := by
  unfold PairTrapReady PairTakes; decide +kernel

/-- A descriptor at 0x10000, in a page of state 3, that asks for key ID 5; the POT stands at 0 and covers 1 GiB. -/
def withDescriptor (f : State → State) : State :=
  f ({ (mapped [(0x102, 3), (0x10004, 1), (0x1000E, 0x50)]).setReg .POT_LIMIT (w64 (2 ^ 30)) with keys := [(5, .loaded 1)] }.setCore 0
    { Core.cold with run := .running, level := .H, g := [(1, 0x10000)] })

/-- Checks 1, 3, 4 and 5 failed, all passed, and a partition that runs. -/
theorem witness_Partitions :
    let x : W64 := 0x10000
    gateCheck (withDescriptor id) 0x10001 = 1 ∧ gateCheck (withDescriptor fun s => s.setRegF .KEY_EPOCH 6 0 1) x = 3 ∧
    gateCheck (withDescriptor fun s => s.setRegF .KEY_EPOCH 9 9 1) x = 4 ∧ gateCheck (withDescriptor fun s => { s with keys := [] }) x = 5 ∧
    gateCheck (withDescriptor id) x = 0 ∧ ((descWords (withDescriptor id) 0x10000).1.getD 5 0).getLsbD 0 = false ∧
    coreReady (withDescriptor id) 0 = true ∧ syncBlocked (withDescriptor id) 0 = false ∧
    (let s := withCore fun c => { c with level := .K, world := .sealedW, running := some ⟨0x10000, 7, 5, 0, false, 0x20000⟩ }
     coreReady s 0 = true ∧ (s.core 0).running.isSome = true ∧ (s.core 0).haltReq = false ∧ interruptDue s 0 = none) := by decide +kernel

/-- A broadcast TLBI by the lowest level that may, and RAND with two different registers and with none. -/
theorem witness_TlbiAndRand :
    let s := withCore fun c => { c with level := .K }
    coreReady s 0 = true ∧ (if (3#3).toNat < 4 then 1 else 2) ≤ levelNum (s.core 0).level ∧ s.regF .NI_RT 1 0 (coreStop 0) 0x72 ≠ 3 := by
  decide +kernel

/-- The bytes from `a` on, `n` of them, in the page of an entry at its own address. -/
def bytesAt (a n : Nat) (e : TlbEnt) : List (Nat × Nat × TlbEnt) := (List.range n).map fun i => (i, a + i, e)

theorem resolves_bytes (s : State) (op : MemOp) (a n : Nat) (h : resolve s 0 op = .ok (bytesAt a n (page 0 .writeBack))) :
    Resolves s 0 op (bytesAt a n (page 0 .writeBack)) :=
  ⟨h, fun b hb => by
    obtain ⟨i, _, rfl⟩ := List.mem_map.1 hb
    exact ⟨rfl, rfl⟩⟩

/-- The last doubleword of a line in the L1D, a vector, an LR; and a load served by the youngest of two retired stores. -/
theorem witness_CoreLoads :
    let s := inL1 id
    Resolves s 0 (cleanOp (.load 1 false) 56 8 true false) (bytesAt 56 8 (page 0 .writeBack)) ∧ (s.core 0).sq = [] ∧
    (∀ b ∈ bytesAt 56 8 (page 0 .writeBack), (hitLine s (.l1d 0) (b.2.1 / 64) b.2.2.key).any (fun l => !l.poison) = true) ∧
    Resolves s 0 (cleanOp (.loadPair 2) 48 16 true false) (bytesAt 48 16 (page 0 .writeBack)) ∧
    Resolves s 0 (cleanOp (.loadVec 31 0xFFFFFFFF#32) 32 32 false false) (bytesAt 32 32 (page 0 .writeBack)) ∧
    Resolves s 0 (cleanOp (.lr 1) 60 4 false true) (bytesAt 60 4 (page 0 .writeBack)) ∧
    (let q : StoreEnt := ⟨[(56, 1), (57, 2), (58, 3), (59, 4)], 56, 4, 0, 56, false⟩
     let s := inL1 fun c => { c with sq := [{ q with bytes := [(59, 9)] }, q] }
     Resolves s 0 (cleanOp (.load 1 true) 58 2 true false) (bytesAt 58 2 (page 0 .writeBack)) ∧
     youngest (s.core 0).sq ((bytesAt 58 2 (page 0 .writeBack)).map fun b => b.2.1) = some q ∧
     ∀ b ∈ bytesAt 58 2 (page 0 .writeBack), (q.byteAt b.2.1).isSome = true) := by
  refine ⟨resolves_bytes _ _ 56 8 ?_, ?_, ?_, resolves_bytes _ _ 48 16 ?_, resolves_bytes _ _ 32 32 ?_, resolves_bytes _ _ 60 4 ?_,
    resolves_bytes _ _ 58 2 ?_, ?_, ?_⟩ <;> decide +kernel

/-- A doubleword store at the end of a line, one byte before it, a line of zeros, and a retired store whose line the core owns. -/
theorem witness_CoreStores :
    let s := inL1 id
    coreReady s 0 = true ∧ (s.core 0).sq.length < 128 ∧
    Resolves s 0 (cleanOp (.store (byteList 8 7)) 56 8 true false) (bytesAt 56 8 (page 0 .writeBack)) ∧
    Resolves s 0 (cleanOp (.store (byteList 8 7)) 60 8 true false) (bytesAt 60 8 (page 0 .writeBack)) ∧
    Resolves s 0 (cleanOp (.store (byteList 64 0)) 64 64 false false) (bytesAt 64 64 (page 0 .writeBack)) ∧
    (let q : StoreEnt := ⟨[(0, 1), (63, 2)], 0, 1, 0, 0, false⟩
     let s := inL1 fun c => { c with sq := [q] }
     (s.core 0).sq = q :: [] ∧ q.bytes ≠ [] ∧ (∀ b ∈ q.bytes, b.1 / 64 = 0) ∧ (q.bytes.map Prod.fst).Nodup ∧ ownsL1 s 0 0 q.key = true ∧
       recovering s 0 0 = false) := by
  refine ⟨?_, ?_, resolves_bytes _ _ 56 8 ?_, resolves_bytes _ _ 60 8 ?_, resolves_bytes _ _ 64 64 ?_, ?_⟩ <;> decide +kernel

/-- An ATOM on the last doubleword of an owned line, an SC with its reservation and one without. -/
theorem witness_CoreAtomics :
    let s := inL1 fun c => { c with resv := some (0, 0) }
    coreReady s 0 = true ∧ (s.core 0).sq = [] ∧
    Resolves s 0 (cleanOp (.atom 3 1 5) 56 8 false true) (bytesAt 56 8 (page 0 .writeBack)) ∧ ownsL1 s 0 0 0 = true ∧
    (hitLine s (.l1d 0) 0 0).any (fun l => !l.poison) = true ∧
    Resolves s 0 (cleanOp (.sc 1 (byteList 4 5)) 60 4 false false) (bytesAt 60 4 (page 0 .writeBack)) ∧
    keyOf (bytesAt 60 4 (page 0 .writeBack)) = 0 ∧ ((inL1 id).core 0).resv = none := by
  refine ⟨?_, ?_, resolves_bytes _ _ 56 8 ?_, ?_, ?_, resolves_bytes _ _ 60 4 ?_, ?_, ?_⟩ <;> decide +kernel

/-- A DC of a cached line; device loads aligned, misaligned and of a vector; guarded mode at level F. -/
theorem witness_CoreMemoryOther :
    let s := inL1 id
    Resolves s 0 (cleanOp (.dc 2) 63 1 false false) (bytesAt 63 1 (page 0 .writeBack)) ∧
    resolve s 0 (cleanOp (.load 1 true) 0x2004 4 true false) = .ok (bytesAt 0x2004 4 (page 0x2000 .device)) ∧
    resolve s 0 (cleanOp (.load 1 true) 0x2002 4 true false) = .ok (bytesAt 0x2002 4 (page 0x2000 .device)) ∧
    resolve s 0 (cleanOp (.loadVec 1 0xFFFFFFFF#32) 0x2020 32 false false) = .ok (bytesAt 0x2020 32 (page 0x2000 .device)) ∧
    TrapReady s 0 ∧ guarded (s.core 0) = true ∧
    (let d := (s.setReg .SAM_ABASE (w64 (2 ^ 63)) 0 0).setReg .SAM_ACFG (w64 (2 ^ 20 + 2 ^ 4 * 11)) 0 0
     devTarget d (coreStop 0) 0x2004 0 = .io 11 ∧ d.regF .NI_RT 1 0 (coreStop 0) (ioStop 11) ≠ 3) := by
  refine ⟨resolves_bytes _ _ 63 1 ?_, ?_, ?_, ?_, ?_, ?_, ?_⟩
  all_goals first | decide +kernel | (unfold TrapReady; decide +kernel)

/-- The last word of the TCM, with a reservation of its line and without. -/
theorem witness_PairMemory :
    let s := withPair fun p => { p with k := [(1, 0x7FFFC)], resv := some (2 ^ 60 + 0x7FFFC / 64) }
    (s.pair 0).worldT = false ∧ PairTakes s 0 [1, 2] [3] ∧ PairTakes s 0 [3, 1, 2] [3] ∧ ((s.pair 0).getR 1).toNat = 0x7FFFC ∧
    ((s.pair 0).getR 1 + (0 : BitVec 14).signExtend 32).toNat + 4 ≤ 2 ^ 19 ∧ (State.reset.pair 0).resv = none := by
  unfold PairTakes; decide +kernel

/-- Vector 255 of H comes to level K of the open world, and to a partition, which may also have been stopped. -/
theorem witness_InterruptEntry :
    let up := fun (c : Core) => (c.setPend .openW 2 255).setSys .openW 2 0x27 (w64 (2 ^ 63))
    let u := inL1 fun c => { up c with level := .K }
    let p := inL1 fun c => { up c with level := .K, world := .sealedW, running := some ⟨0x10000, 7, 5, 0, false, 0x20000⟩ }
    coreReady u 0 = true ∧ syncBlocked u 0 = false ∧ interruptDue u 0 = some (.H, 255) ∧ (u.core 0).sq = [] ∧
    Fetches u 0 (entered .H 0x200 (w64 (2 ^ 63 + 255)) 0 (u.core 0)) ∧
    coreReady p 0 = true ∧ interruptDue p 0 = some (.H, 255) ∧ (p.core 0).running.isSome = true ∧
    (peek (mapped [(0x10004, 3)]) 0x10004 1 0).1 = 3 :=
  ⟨by decide +kernel, by decide +kernel, by decide +kernel, by decide +kernel, ⟨page 0 .writeBack, by decide +kernel⟩, by decide +kernel⟩


/-! ## Witnesses: cores, homes and the fabric (chapters 04 to 07) -/

/-- WFI, C3 entry and C3, with a wake condition and without. -/
theorem witness_WakeAndC3 :
    let at_ := fun (r : Run) (wake : Bool) => withCore fun c =>
      { (if wake then (c.setPend .openW 2 1).setSys .openW 2 0x24 2 else c) with run := r, level := .H }
    ((at_ .feather true).core 0).run = .feather ∧ ((at_ .feather true).core 0).wakes = true ∧ interruptDue (at_ .feather true) 0 = none ∧
    ((at_ .c3Entry false).core 0).wakes = false ∧ ((at_ .c3 true).core 0).wakes = true ∧ interruptDue (at_ .c3 true) 0 = none ∧
    domainUp (at_ .c3 true) (8 + coreRow 0) = true := by decide +kernel

/-- What a walk comes to: the memory type, or the code of its fault. -/
def walk (s : State) (l : Level) (va : Nat) : Option MemType × Option Nat :=
  match translate s (coreCtx s 0 l) va .fetch with
  | .ok e => (some e.mt, none)
  | .error f => (none, some f.code)

/-- A walk that finds memory and one that faults; a fill of a line the L2 holds; a held load; a stream of the last core's. -/
theorem witness_CoreFills :
    let s := (mapped []).setCore 0 { Core.cold with run := .running, tlb := [page 0 .writeBack] }
    let ok := s.setCore 0 { s.core 0 with pc := 0x3FFFFFFC }
    let bad := s.setCore 0 { s.core 0 with level := .K, tlb := [], eff := [(sysKey .openW 1 9, 1)] }
    coreReady ok 0 = true ∧ tlbHit ok 0 (coreCtx ok 0 .F) 0x3FFFFFFC = none ∧
    walk ok .F 0x3FFFFFFC = (some .writeBack, none) ∧
    tlbHit bad 0 (coreCtx bad 0 .K) 0 = none ∧
    walk bad .K 0 = (none, some 0x10) ∧ TrapReady bad 0 ∧
    (let f := { inL1 fun c => { c with fills := [(0, 0, false)] } with lines := [(wayKey (.l2 0) 0 15, dirty 0 5)] }
     (f.core 0).fills = (0, 0, false) :: [] ∧ (f.core 0).wait = none ∧ findLine f (.l1d 0) 0 = none ∧ (hitLine f (.l2 0) 0 0).isSome = true ∧ recovering f 0 0 = false ∧
       (f.fab.outs.any fun o => o.who == .core 0 && o.addr == 0 && asksLine o.op) = false ∧ liveWays f (.l1d 0) ≠ []) ∧
    (let h := inL1 fun c => { c with wait := some ⟨cleanOp (.load 1 true) 56 8 true false, .held, 0, 0⟩ }
     ((h.core 0).wait.map Wait.phase) = some .held ∧ Resolves h 0 (cleanOp (.load 1 true) 56 8 true false) (bytesAt 56 8 (page 0 .writeBack))) ∧
    (let p := (mapped []).setCore 143 { Core.cold with run := .running, pfStream := [⟨63, 0, false, 4⟩] }
     (p.core 143).mayPrefetch .stream 47 = some 0 ∧ findLine p (.l2 143) 47 = none ∧ recovering p 143 47 = false ∧
       (match devTarget p (coreStop 143) (47 * 64) 0 with | .home _ => true | _ => false) = true ∧ p.regF .NI_RT 1 0 (coreStop 143) (tileStop 0) ≠ 3) := by
  refine ⟨?_, ?_, ?_, ?_, ?_, ?_, ?_, ⟨?_, resolves_bytes _ _ 56 8 ?_⟩, ?_⟩
  all_goals first | decide +kernel | (unfold TrapReady; decide +kernel)

/-- A state with one packet in the fabric. -/
def sent (p : Packet) (s : State) : State := { s with fab := { s.fab with net := [p] } }

/-- A request of core 143 for line 5 at the home in tile 71. -/
def asks (op : Op) : Packet := mkPacket op (coreStop 143) (tileStop 71) 9 5 0 (.core 143) (.home 71)

/-- The port of its stop in every state, and its number among those outstanding. -/
theorem witness_RequestsAtPorts :
    ∀ v ∈ [0, 1, 2, 3, 4, 5], let s := (sent (asks .RdS) State.reset).setRegF .NI_PORT 2 0 v (tileStop 71)
      let s := { s with fab := { s.fab with outs := [⟨coreStop 143, 9, .core 143, .RdS, 5, 0, tileStop 71, false, 0⟩] } }
      s.fab.net = asks .RdS :: [] ∧ fromCore .RdS 143 5 0 (asks .RdS) = true ∧ sliceOpen s (sliceOf (asks .RdS)) = true ∧
      s.regF .NI_PORT 2 0 (asks .RdS).dst = v ∧ awaited (asks .RdS) s = true := by decide +kernel

/-- The L3's set 5 with a line, and a directory entry shared by core 1 or by 143 alone; an untouched line of the map. -/
theorem witness_HomeServes :
    let l3 := { State.reset with lines := [(wayKey (.l3 71) 5 11, ⟨5, 0, .E, 3, false, 0, false⟩)] }
    let dir := fun (b : BitVec 144) => { State.reset with dir := [(dirKey 71 5 15, ⟨5, 0, .S, b, 0, 15, 0⟩)] }
    First (sent (asks .RdS) l3) (asks .RdS) [] ∧ l3.homes.txns = [] ∧ l3.homes.stopped.contains 71 = false ∧ findDir l3 71 5 = none ∧
    (findLine l3 (.l3 71) 5).isSome = true ∧ NMap.find? l3.dir (dirKey 71 (cacheSet (.l3 71) 5) 15) = none ∧
    First (sent (asks .RdO) (dir 2)) (asks .RdO) [] ∧ (findDir (dir 2) 71 5).isSome = true ∧ findLine (dir 2) (.l3 71) 5 = none ∧
    (findDir (dir (1#144 <<< 143)) 71 5).map (fun x => x.2.pres) = some (1#144 <<< 143) ∧
    First (sent (asks .WrLine) (mapped [])) (asks .WrLine) [] ∧ memOf (mapped []) (tileStop 71) 5 = some (0, 5) := by
  unfold First; decide +kernel

/-- A writeback in Finish, a cleaning with its buffer entry, an eviction notice of one of two cores, an acknowledgement, and an L2
above its threshold. -/
theorem witness_Writebacks :
    let m := { (mapped []) with fab := { (mapped []).fab with finishLevel := true } }
    let wb : WbEnt := ⟨143, 5, 0, 7, false, false, true⟩
    First (sent (asks .WBk) m) (asks .WBk) [] ∧ activeTxn m 71 5 = none ∧ memOf m (tileStop 71) 5 = some (0, 5) ∧
    (let s := { (mapped []) with homes := { (mapped []).homes with wbs := [wb] } }
     First (sent (asks .WCln) s) (asks .WCln) [] ∧ (s.homes.wbs.any fun w => w.core == 143 && w.line == 5 && w.clean) = true) ∧
    (let s := { State.reset with dir := [(dirKey 71 5 0, ⟨5, 0, .S, 1#144 <<< 143 ||| 1, 0, 0, 0⟩)] }
     First (sent (asks .EvC) s) (asks .EvC) [] ∧ wbOf s 143 5 = none ∧ (findDir s 71 5).isSome = true ∧
       (1#144 <<< 143 ||| 1) &&& ~~~(1#144 <<< 143) ≠ 0) ∧
    (let p := mkPacket .WBAck (tileStop 71) (coreStop 143) 0 5 0 (.home 71) (.core 143)
     First (sent p State.reset) p []) ∧
    (let s := { State.reset.setRegF .DB_CFG 4 0 0 with lines := [(wayKey (.l2 143) 5 0, dirty 5 1)] }
     dirtyLimit s (.l2 143) * 7 < dirtyCount s (.l2 143) * 8 ∧ (∀ l ∈ cacheLines s (.l2 143), (findLine s (.l2 143) l.line).map Prod.snd = some l)) ∧
    dirtyCount State.reset (.l3 0) * 8 ≤ dirtyLimit State.reset (.l3 0) * 7 := by
  unfold First; decide +kernel

/-- A snoop of core 143 that names core 1, with the line in its L2, and in its writeback buffer alone; answers that a transaction with
two to come waits for. -/
theorem witness_Snoops :
    let p := { mkPacket .SnpIF (tileStop 71) (coreStop 143) 0 5 0 (.home 71) (.core 143) with fwd := some (coreStop 1, 3, .core 1) }
    let a := { State.reset with lines := [(wayKey (.l2 143) 5 3, dirty 5 1)] }
    let b := { State.reset with homes := { State.reset.homes with wbs := [⟨143, 5, 0, 7, false, false, false⟩] } }
    First (sent p a) p [] ∧ holdSnoop (sent p a) 143 5 = false ∧ recovering a 143 5 = false ∧ (findLine a (.l2 143) 5).isSome = true ∧
    findLine a (.l1d 143) 5 = none ∧ wbOf a 143 5 = none ∧
    First (sent p b) p [] ∧ wbOf b 143 5 ≠ none ∧ findLine b (.l2 143) 5 = none ∧
    (let x : Txn := ⟨71, mkPacket .RdO (coreStop 1) (tileStop 71) 3 5 0 (.core 1) (.home 71), true, 2, none, false, false, false, false, false, []⟩
     let s := { State.reset with homes := { State.reset.homes with txns := [x] } }
     let q := { asks .SnpAck with arg := 2 }
     First (sent q s) q [] ∧ s.homes.txns = [x] ∧ x.slice = sliceOf q ∧ x.acks = 0 + 2) := by
  unfold First; decide +kernel

/-- Grants to core 143 at the dirty limit and below it, a device load that ends, a fill of CX3; and none outstanding. -/
theorem witness_Responses :
    let o := fun (op : Op) (who : Machine.Unit) (stop : Nat) => (⟨stop, 9, who, op, 5, 0, tileStop 71, false, 0⟩ : Out)
    let ans := fun (op : Op) (stop : Nat) => mkPacket op (tileStop 71) stop 9 5 0 (.home 71) (.core 143)
    let st := fun (op aop : Op) (who : Machine.Unit) (stop : Nat) (s : State) => sent (ans aop stop) { s with fab := { s.fab with outs := [o op who stop] } }
    let ok := fun (op aop : Op) (who : Machine.Unit) (stop : Nat) (s : State) => let s := st op aop who stop s
      First s (ans aop stop) [] ∧ findOut s stop 9 = some (o op who stop) ∧ answerWaits s (o op who stop) (ans aop stop) = false ∧
        grantWaits s (ans aop stop) = false
    ok .RdO .DatM (.core 143) (coreStop 143) State.reset ∧ liveWays State.reset (.l2 143) ≠ [] ∧ atLimit State.reset (.l2 143) = false ∧
    ok .Upg .CmpM (.core 143) (coreStop 143) { State.reset with lines := [(wayKey (.l2 143) 5 0, { dirty 5 1 with st := .S })] } ∧
    ok .WrPtl .Cmp (.core 143) (coreStop 143) State.reset ∧
    ok .RdDev .DatRd (.core 143) (coreStop 143) (State.reset.setCore 143
      { Core.cold with wait := some ⟨cleanOp (.load 1 true) 0x140 8 true false, .dev none, 0, 0⟩ }) ∧
    ok .RdOnce .DatRd (.pairCache 3 true) (svStop 3) State.reset ∧
    ((stopKind (coreStop 143)).isSome = true ∧ findOut State.reset (coreStop 143) 9 = none ∧ State.reset.fab.net = [] ∧
      State.reset.regF .NI_WD_LOG 31 16 (coreStop 143) < 0xFFFF ∧ State.reset.regF .NI_WD_LOG 63 63 (coreStop 143) = 0) := by
  unfold First; decide +kernel

/-- An idle channel, and one with a write entry of the line. -/
theorem witness_MemoryStopRequests :
    let p := fun (op : Op) => mkPacket op (tileStop 71) (mcStop 0) 9 5 0 (.home 71) (.mc 0)
    let e : MemEnt := ⟨0, true, 5, 5, 0, 7, false, false, 0, 0, 0, 0, false, 0, 0, p .MemWr⟩
    let w := (mapped []).setMc 0 { MemStop.cold with ents := [e] }
    First (sent (p .MemRd) w) (p .MemRd) [] ∧ localLine w 0 5 = some 5 ∧ (w.mc 0).dead = false ∧ queuesFull w 0 = false ∧
    writeEntry w 0 5 = some e ∧ forwards w 0 5 = false ∧ memOf w (mcStop 0) 5 = some (0, 5) ∧ writeEntry (mapped []) 0 5 = none ∧
    First (sent (p .ShDec) w) (p .ShDec) [] ∧ shadowAt w 0 5 = 0 ∧ shadowAt { w with shadow := [(shadowIndex 5, 15)] } 0 5 = 15 := by
  unfold First; decide +kernel


/-! ## Witnesses: upkeep, the map, the fabric, registers and DRAM (chapters 01, 05 to 07, 14) -/

/-- A broadcast from a stop with the units and stops that have still to answer. -/
def cast_ (kind : BcastKind) (src : Nat) (who : Machine.Unit) (arg : Nat) (todo : List XlUnit) (missing : List Nat) : Bcast :=
  ⟨kind, src, who, 0, 0, arg, .own, todo, missing⟩

def casting (b : Bcast) : State := { State.reset with fab := { State.reset.fab with bcasts := [b] } }

/-- Set 1023 of the last L2; its answer from slice 71; two ways of an L2 and two of an L3; a locked and an open register. -/
theorem witness_CacheUpkeep :
    NMap.find? State.reset.homes.recov (recovKey 143 1023) = none ∧
    (let s := { casting (cast_ .tagRecov (coreStop 143) (.core 143) 1023 [] []) with
        homes := { State.reset.homes with recov := [(recovKey 143 1023, BitVec.allOnes 72)] } }
     NMap.find? s.homes.recov (recovKey 143 1023) = some (BitVec.allOnes 72) ∧ (BitVec.allOnes 72).getLsbD 71 = true ∧
       s.regF .NI_PORT 2 0 (tileStop 71) = 0) ∧
    cacheIn (.l3 71) = true ∧ 11 < cacheWays (.l3 71) ∧
    (∀ c ∈ wayCaches 71 true, ((List.range (cacheWays c)).filter (asksWay 0xC0000008001#64 c)).length ≤ disableLimit c) ∧
    fuseLocked State.reset .DB_CFG = false ∧ State.reset.regF .CCH_MODE 1 1 = 0 := by decide +kernel

theorem find?_full (n : Nat) : NMap.find? (List.replicate n (6, true)) 5 = none := by
  induction n with
  | zero => rfl
  | succ n ih => simpa [List.replicate_succ, NMap.find?] using ih

/-- The last entry; a rule broken and none; two stops to go and one; a tracker with a line and a full one. -/
theorem witness_AddressMap :
    let good := State.reset.writeReg (samName .RADDR) 5 0 7
    let bad := ((State.reset.setReg .SAM_RADDR (w64 (2 ^ 63 + 2 ^ 33)) 0 0).writeReg (samName .RADDR) (w64 (2 ^ 63 + 2 ^ 32)) 0 7)
    (overlaps good true 7 || regionBad good 7) = false ∧ (overlaps bad true 7 || regionBad bad 7) = true ∧ isHF (.core 0 .H .openW) = true ∧
    (casting (cast_ .samUpd 2 (.pair 0) 0 [] [5])).fab.bcasts.map Bcast.missing = [[5]] ∧
    (let s := (mapped []).setMc 0 { MemStop.cold with tracker := [(5, true)], remoteSnoops := [(5, false)] }
     localLine s 0 5 = some 5 ∧ (5, false) ∈ (s.mc 0).remoteSnoops ∧ NMap.find? (s.mc 0).tracker 5 = some true) ∧
    (∃ m : NMap Bool, NMap.find? m 5 = none ∧ 65536 ≤ m.length) :=
  ⟨by decide +kernel, by decide +kernel, by decide +kernel, by decide +kernel, by decide +kernel,
    List.replicate 65536 (6, true), find?_full _, Nat.le_of_eq List.length_replicate.symm⟩

/-- A flit to `dst`. -/
def flit (vn ok : Bool) (dst : Byte) : Flit :=
  ⟨0, 0, vn, false, 0, 0, dst, 0x11, 3, 5, 0, 0, 0, false, false, false, false, 0, ok, true⟩

/-- A bad header; west, east and north; a port that wakes and one that resynchronises; a route entry. -/
theorem witness_RoutersAndPorts :
    let at_ := fun (f : Flit) => { State.reset with fab := { State.reset.fab with routers := [(0x34 * 8 + 0, [f])] } }
    bypassed (at_ (flit false false 0x31)) 0x34 = false ∧
    (∀ f ∈ [flit false true 0x31, flit false true 0x3B, flit true true 0x14], let s := at_ f
      NMap.get [] s.fab.routers (0x34 * 8 + portNum .own) = [f] ∧ f.hchkOk = true ∧
      injArmed s (.fabric 0x34) 0x20 [4] (f.addr.toNat * 64) = false ∧ probeMatch s 0x34 .own f = false ∧ f.plane ≠ 2 ∧
      s.regF .FAB_BYPASS 17 16 = 0 ∧ NMap.get [] s.fab.routers (0x33 * 8 + portNum (farInput .west)) = []) ∧
    (flit false true 0x31).dst.toNat % 16 < 0x34 % 16 ∧ 0x34 % 16 < (flit false true 0x3B).dst.toNat % 16 ∧
    (flit true true 0x14).dst.toNat / 16 < 0x34 / 16 ∧
    (State.reset.setRegF .NI_PORT 2 0 2 0x34).regF .NI_PORT 2 0 0x34 = 2 ∧ NMap.get [] State.reset.fab.heldFlits 0x34 = [] ∧
    (plainRoute 0x34 0x35 0 ∧ plainRoute 0x34 0x35 3 ∧ ¬plainRoute 0x34 0x34 3) ∧ isHF (.core 0 .F .openW) = true := by
  unfold plainRoute; decide +kernel

/-- A core's line request; a port in RUN; the last and an earlier mark; a port that is waited for; an acknowledgement and the stop that
never sends one. -/
theorem witness_WatchdogsAndFences :
    let o : Out := ⟨coreStop 0, 9, .core 0, .RdS, 5, 0, tileStop 71, false, 0⟩
    let s := { withCore id with fab := { State.reset.fab with outs := [o] } }
    findOut s (coreStop 0) 9 = some o ∧ syncBlocked s 0 = false ∧ (s.core 0).wait = none ∧ (s.core 0).sq = [] ∧
    (stopKind 0x72).isSome = true ∧ NMap.get [] State.reset.fab.heldFlits 0x72 = [] ∧ State.reset.regF .NI_PORT 2 0 0x72 < 3 ∧
    (let p := { mkPacket .FenceMark (tileStop 71) (coreStop 0) 9 0 0 .ni .ni with arg := 8 }
     ∀ m ∈ [1, 9], let s := sent p { State.reset with fab := { State.reset.fab with outs := [{ o with held := true, marks := m }] } }
       s.fab.net = [p] ∧ s.fab.outs = [{ o with held := true, marks := m }] ∧ p.dst = o.stop ∧ p.src = o.dst ∧ p.tid = o.tid ∧ m = m - 1 + 1) ∧
    waitsAtPort (sent (asks .RdS) State.reset) (tileStop 71) = some (coreStop 143) ∧
    (let b := cast_ .potInv 0x02 (.pair 0) 0 [] [0x72, 0x7A]
     let p := { mkPacket .BcAck 0x72 0x02 0 0 0 .ni (.pair 0) with arg := bcastCode .potInv }
     (sent p (casting b)).fab.net = [p] ∧ (sent p (casting b)).fab.bcasts = [b] ∧ b.who = p.to_ ∧ b.arg = p.addr ∧ b.src = p.dst) ∧
    (casting (cast_ .potInv 0x02 (.pair 0) 0 [] [0x7A])).fab.bcasts = [cast_ .potInv 0x02 (.pair 0) 0 [] [0x7A]] := by decide +kernel

/-- The last core in service, in no partition and in one; level H; a held entry with vector 5. -/
theorem witness_InterruptDelivery :
    coreInService State.reset 143 = true ∧ State.reset.regF .NI_PORT 2 0 (coreStop 143) = 0 ∧ State.reset.fab.net = [] ∧
    (let s := State.reset.setCore 143 { Core.cold with running := some ⟨0x10000, 7, 5, 0, false, 0x20000⟩ }
     (s.core 143).running.map Running.part = some 7 ∧ coreInService s 143 = true) ∧
    (let s := withCore fun c => { c with level := .H, held := [(15, ⟨7, 1#256 <<< 5⟩)] }
     coreReady s 0 = true ∧ NMap.find? (s.core 0).held 15 = some ⟨7, 1#256 <<< 5⟩ ∧ fld (w64 (143 * 2 ^ 48 + 2 ^ 32)) 32 32 = 1 ∧
       coreInService s (fld (w64 (143 * 2 ^ 48 + 2 ^ 32)) 55 48) = true) := by decide +kernel

/-- No command under way; one unit to go, of each kind; level H for an open context. -/
theorem witness_Invalidations :
    State.reset.regF .POT_INV 0 0 = 0 ∧ State.reset.regF .IOTU_INV 63 63 = 0 ∧ isHF (.core 0 .H .openW) = true ∧ fld (0 : W64) 60 60 = 0 ∧
    bcastOpen State.reset .potInv = false ∧ bcastOpen State.reset .iotuInv = false ∧
    (∀ k ∈ [BcastKind.iotuInv, .potInv], (casting (cast_ k 0x02 (.pair 0) 0 [.iotu 11] [ioStop 11])).fab.bcasts.map Bcast.todo = [[.iotu 11]]) ∧
    State.reset.regF .NI_PORT 2 0 (ioStop 11) = 0 ∧
    (let s := casting (cast_ .tlbi 0x02 (.core 1) 0 [.core 143] [coreStop 143])
     s.fab.bcasts.map Bcast.todo = [[.core 143]] ∧ (s.core 143).wait = none ∧ (s.core 143).sq = []) := by decide +kernel

/-- Registers of a stop and of the boot island, as CX0 reads and writes them, and the end of a core's register load. -/
theorem witness_Registers :
    Stands State.reset (.cx 0) (RegName.NI_WD_CFG.key 0x72 0) .NI_WD_CFG 0x72 0 ∧ Stands State.reset (.cx 0) (RegName.MC_SCHED.key 15 0) .MC_SCHED 15 0 ∧
    Stands State.reset .debug (RegName.SEC_INJ_EN.key 0 0) .SEC_INJ_EN 0 0 ∧ Stands State.reset (.cx 0) (RegName.BOOT_STATUS.key 0 0) .BOOT_STATUS 0 0 ∧
    (∀ op ∈ [Op.RegRd, .RegWr], let p := { mkPacket op 0x02 0x72 4 (RegName.NI_WD_CFG.key 0x72 0) 0 (.pair 0) .ni with mask := 0xFF, data := (7#64).setWidth 512 }
      First (sent p State.reset) p [] ∧ p.src = reqStop (.cx 0) ∧ p.dst = RegName.NI_WD_CFG.key 0x72 0 >>> 24 ∧ unitOf (.cx 0) p.from_ = true) ∧
    (let w : Wait := ⟨cleanOp (.load 1 true) 0x140 8 true false, .dev none, 0, 0⟩
     let o : Out := ⟨coreStop 0, 4, .core 0, .RegRd, 5, 0, 0x72, false, 0⟩
     let p := mkPacket .RegCmp 0x72 (coreStop 0) 4 0 0 .ni (.core 0)
     let s := sent p { withCore fun c => { c with wait := some w } with fab := { State.reset.fab with outs := [o] } }
     First s p [] ∧ findOut s (coreStop 0) 4 = some o ∧ answerWaits s o p = false ∧ grantWaits s p = false ∧ (s.core 0).wait = some w) := by
  unfold Stands First
  exact ⟨by decide +kernel, by decide +kernel, by decide +kernel, by decide +kernel, by decide +kernel, by decide +kernel⟩

/-- A read or write entry of channel 0, subchannel 1. -/
def entry (write issued : Bool) : MemEnt :=
  ⟨0, write, 5, 5, 0, 7, false, false, 0, 0, 0, 0, issued, 0, 0, mkPacket .MemRd (tileStop 71) (mcStop 0) 9 5 0 (.home 71) (.mc 0)⟩

def channel (f : MemStop → MemStop) : State := (mapped []).setMc 0 (f MemStop.cold)

/-- The waiting request on a closed bank, another row and its own; a read issued; sparing, patrol and alerts. -/
theorem witness_DramChannel :
    (∀ w ∈ [false, true], OneWaits (channel fun m => { m with ents := [entry w false] }) 0 1 (entry w false)) ∧
    (bankAt (channel fun m => { m with ents := [entry true false] }) 0 (bankFor (channel id) 0 (entry true false))).openRow = none ∧
    (let k := bankFor (channel id) 0 (entry true false)
     ∀ r ∈ [0, 1], let s := channel fun m => { m with ents := [entry true false], banks := [(k, { Bank.cold with openRow := some r })] }
       OneWaits s 0 1 (entry true false) ∧ (bankAt s 0 (bankFor s 0 (entry true false))).openRow = some r ∧ rowFor s 0 (entry true false) = 0 ∧
       injArmed s (.mc 0) 0x30 [3] 320 = false) ∧
    ((channel fun m => { m with refreshDue := 2 }).mc 0).refreshDue.getLsbD 1 = true ∧
    (let s := channel fun m => { m with ents := [entry false true] }
     (s.mc 0).ents = [entry false true] ∧ injArmed s (.mc 0) 0x30 [1] 320 = false ∧ injArmed s (.mc 0) 0x30 [0] 320 = false ∧
       (NMap.get LMeta.plain s.lmeta (cellLine 0 5)).poison = false) ∧
    (let s := channel fun m => { m with ents := [entry false false] }
     (waiting s 0 1)[0]? = some (entry false false)) ∧
    NMap.find? ((channel fun m => { m with spared := [(1, (31, false))] }).mc 0).spared 1 = some (31, false) ∧
    (let s := ((channel id).setRegF .MC_RAS_CFG 15 8 1 0).setRegF .MC_DIMM 47 32 1 0
     s.regF .MC_RAS_CFG 15 8 0 ≠ 0 ∧ s.regF .MC_DIMM 47 32 0 ≠ 0 ∧ regionOf (State.reset.setRegF .MC_DIMM 47 32 1 0) 0 0 = none) := by
  unfold OneWaits; decide +kernel

/-- Slot 0 and the last; a key with equal halves, the last epoch, and a key that is taken; busy and not. -/
theorem witness_KeySlots :
    State.reset.regF .KEY_STATUS 0 0 = 0 ∧ keyData State.reset = 0 ∧ State.reset.regF .KEY_EPOCH 9 9 = 0 ∧
    (let k := keyData (State.reset.setReg .KEY_DATA 1 0 7)
     k.setWidth 256 ≠ (k >>> 256).setWidth 256) ∧ (State.reset.setRegF .KEY_EPOCH 9 9 1).regF .KEY_EPOCH 9 9 = 1 ∧
    (State.reset.setRegF .KEY_STATUS 0 0 1).regF .KEY_STATUS 0 0 = 1 := by decide +kernel


/-! ## Witnesses: the Sweep (chapters 08 and 09) -/

/-- The map with granule 4096 on channel 0 and queue 0 bound to region 0, disabled. -/
def queued (f : SwQueue → SwQueue) : State := ((mapped []).setReg .SAM_RCFG (w64 (3 * 2 ^ 56 + 1)) 0 0).modQueue 0 f

/-- The words a read of queue 0's QCB brings. -/
def qcbWords (s : State) : List W64 := match readQcb 0 s with | .ok r => r.1 | .error _ => []

/-- A binding that fails check 1 and one that fails none; queue 1023; jobs gone; a live queue whose QCB reads as zeros; a handle of a
buffer that is not out. -/
theorem witness_SweepQueues :
    queueWriter (.core 0 .H .openW) = true ∧ (State.reset.queue 1023).resetting = false ∧ qF State.reset .SWQ_CTL 0 0 1023 = 0 ∧
    qF State.reset .SWQ_CTL 1 1 1023 = 0 ∧ bindErr State.reset 1023 = 1 ∧ bindErr (queued id) 0 = 0 ∧
    (State.reset.queue 1023).jobs = [] ∧ (State.reset.queue 1023).latched = false ∧ queueWriter (.cx 1) = false ∧
    (let s := setQF .SWQ_CTL 0 0 0 1 (setQF .SWQ_CFG 63 56 0 5 (queued fun x => { x with reading := true }))
     queueLive s 0 = true ∧ polled s 0 = true ∧ (s.queue 0).reading = true ∧
       qcbWords (s.modQueue 0 fun x => { x with reading := false }) = List.replicate 8 0 ∧
       fld (0 : W64) 31 0 = (s.queue 0).subHead) ∧
    (let s := setQF .SWQ_CFG 20 0 0 8 (queued id)
     swHalted s = false ∧ qF s .SWQ_CTL 63 63 0 = 0 ∧ fld (7 : W64) 19 0 < poolCount s 0 ∧ poolGet s 0 7 % 4 ≠ 2 ∧ bit (qreg s .SWQ_IRQD 0) 32 = false) := by
  refine ⟨?_, ?_, ?_, ?_, ?_, ?_, ?_, ?_, ?_, ⟨?_, ?_, ?_, ?_, ?_⟩, ?_⟩ <;> decide +kernel

/-- A FILL of 4096 bytes at 0x2000 by queue 0, on engine 0, with its record at 0x1000. -/
def fillJob : SwJob := ⟨3, 0, [5, 0x1000, 0, 4096, 0x2000, 0, 0, 0, 0x1122, 0], 1, 0, 0, 0, 0, 0⟩

/-- The share of a job on engine 0. -/
def share (f : SwShare → SwShare) : SwShare :=
  f ⟨3, 0, true, 0, 0, 0, 0, false, false, false, none, [], [], [], Ucode.cold, false, []⟩

def sweeping (j : SwJob) (h : SwShare) : State :=
  (queued fun x => { x with jobs := [j] }).modEngine 0 fun n => { n with shares := [h] }

/-- Whether a fallible step of the Sweep succeeds. -/
def succeeds {α : Type} (r : Except SwFail α) : Bool := match r with | .ok _ => true | .error _ => false

/-- A job that starts and one its check refuses, a unit, a share that resumes, one that times out and one that reports; the last
engine's end; stop and run; the loader idle, busy, holding, with and without a module to read. -/
theorem witness_SweepJobs :
    (let h := share fun x => { x with started := false }
     let s := sweeping fillJob h
     engineRuns s 0 = true ∧ busyShare s 0 = false ∧ (s.engine 0).shares.find? (mayStart s 0) = some h ∧ shareJob s h = some fillJob ∧
       startFault s fillJob = 0 ∧ fillJob.customer = false ∧ fillJob.pkind = 0 ∧ startFault s { fillJob with words := [9] } ≠ 0) ∧
    (let s := sweeping fillJob (share id)
     activeShare s 0 = some (share id) ∧ shareJob s (share id) = some fillJob ∧ nextUnit s 0 fillJob 0 = some 0 ∧ fillJob.blocks = false ∧
       succeeds (chunkWrite 0 fillJob 0 s) = true ∧ succeeds (writeCounts 0 0 fillJob (share fun h => { h with next := 1, ended := 1, consumed := 1 }) s) = true) ∧
    (let h := share fun x => { x with susp := true, resume := true }
     ((sweeping fillJob h).engine 0).shares.find? (fun h => h.susp && h.resume) = some h) ∧
    (let h := share fun x => { x with susp := true }
     let j := { fillJob with err := 5 }
     let s := setQF .SWQ_CFG 55 48 0 1 (sweeping j h)
     engineRuns s 0 = true ∧ qF s .SWQ_CFG 55 48 0 ≠ 0 ∧ ((s.engine 0).shares.find? fun h => h.susp && h.queue == 0) = some h ∧ shareJob s h = some j ∧
       j.op ≠ 2) ∧
    (let h := share fun x => { x with err := some (5, 0), stop := true }
     let j := { fillJob with err := 5 }
     let s := sweeping j h
     ((s.engine 0).shares.find? fun h => h.queue == 0 && h.err.isSome) = some h ∧ shareJob s h = some j ∧ (s.queue 0).resetting = false) ∧
    (let j := { fillJob with done := 1 }
     let s := queued fun x => { x with jobs := [j] }
     (s.queue 0).jobs = [j] ∧ j.done = j.group ∧ j.irq = false) ∧
    (swCtlWriter (.cx 1) = true ∧ (State.reset.setRegF .SW_STATUS 1 0 2 15).regF .SW_STATUS 1 0 15 = 2 ∧ midUnit State.reset 15 = false) ∧
    (loaderTakes State.reset (.cx 0) = true ∧ loaderTakes State.reset .debug = false ∧ State.reset.regF .SWU_STATUS 0 0 = 0) ∧
    customerRuns State.reset = false ∧
    (match readModule State.reset 0x7A (State.reset.regF .SWU_SRC 51 6 * 64) with | .ok _ => 16 | .error x => x.1) < 16 := by
  refine ⟨?_, ?_, ?_, ?_, ?_, ?_, ?_, ?_, ?_, ?_⟩ <;> decide +kernel

/-- A customer job on engine 0 whose sequencer stands at word 0x3000 of a module that holds `w` there; entry 0x80 of kind 1 with one
allocation of 64 KiB. -/
def atWord (w : W32) (u : Ucode → Ucode) : State :=
  let h := share fun x => { x with uc := u { Ucode.cold with pc := 0x3000, phase := .body } }
  let s := (sweeping { fillJob with words := [w64 0x80] } h).setReg .SWU_STATUS (w64 (2 ^ 48))
  { s with sweep := { s.sweep with loader := { s.sweep.loader with loaded := some ⟨1, 2, 3, [w64 (2 ^ 63 + 2 ^ 61 + 2 ^ 48)], [w]⟩ } } }

/-- The sequencer at a scalar, a lane, a mask and a control word. -/
theorem witness_UcodeValues :
    ([ucS 0x01 2 15 15 15, ucI 0x09 0 1 2 0xFFFF, ucX 0x10 0 7 7 7 0 0 0 0, ucX 0x1A 0 0 0 7 7 7 0 3, ucC 0x00 3 0].all fun w =>
      let s := atWord w id
      let h := share fun x => { x with uc := { Ucode.cold with pc := 0x3000, phase := .body } }
      swInService s 0 && decide (s.regF .SW_STATUS 1 0 0 < 2) && !swHalted s && decide (ucShare s 0 = some h) &&
        decide (shareJob s h = some { fillJob with words := [w64 0x80] }) && ctrlWord s 0 h.uc.pc == w && !parityArmed s 0) = true := by
  decide +kernel

/-- A link stack with seven and eight links and none; the last line of the allocation and the first beyond it; a kind 1 body and another
phase. -/
theorem witness_UcodeControl :
    let j := { fillJob with words := [w64 0x80] }
    ([0, 7, 8].all fun n => [ucB 0x31 0 true false 15 9, ucC 0x32 0 0].all fun w =>
      let u := { Ucode.cold with pc := 0x3000, phase := .body, link := List.replicate n 0x3005 }
      let s := atWord w fun _ => u
      decide (ucShare s 0 = some (share fun x => { x with uc := u })) && ctrlWord s 0 u.pc == w && decide (u.target = none)) = true ∧
    allocBytes (atWord 0 id) j = 65536 ∧ ((0 : W64).toNat + 64 * (1023#15).toNat + 64 ≤ 65536) ∧ 65536 < (0 : W64).toNat + 64 * (1024#15).toNat + 64 ∧
    inUnitBody (atWord 0 id) j { Ucode.cold with phase := .body } = true ∧ inUnitBody (atWord 0 id) j { Ucode.cold with phase := .init } = false ∧
    j.outForm ≠ 4 ∧ 4 ≤ ({ j with words := [w64 (0x80 + 4 * 2 ^ 24)] } : SwJob).outForm ∧
    (let s := atWord (ucSvc 0 0) id
     (0 : Nat) % 64 = 0 ∧ succeeds (swRead 0 0 0x2000 64 none s) = true) := by
  refine ⟨?_, ?_, ?_, ?_, ?_, ?_, ?_, ?_, ?_⟩ <;> decide +kernel


/-! ## Witnesses: pairs, Finish, power, boot, I/O, errors and debug (chapters 10 to 17) -/

/-- Interrupt input 63 at level 4 in window 7; a spill into the last slot and beyond the area; a divide; a line for the I-cache; a
reach slot with a device segment and without; halts and mismatches. -/
theorem witness_PairsUnderControl :
    cxsWriter State.reset (.cx 0) 3 = true ∧ cxsWriter State.reset (.cx 3) 3 = false ∧ State.reset.regF .CXS_CTL 0 0 3 = 1 ∧
    State.reset.regF .CXS_CTL 0 0 0 = 0 ∧ cxsWriter State.reset (.cx 2) 0 = true ∧ pairAlive State.reset 0 = true ∧
    (let p := (withPair fun p => { p with pend := 1#64 <<< 63, cxr := [(0, 1), (9, 0x80000000#32), (15, 0xC0000000#32)], cwp := 7 }).pair 0
     p.chosen = some 63 ∧ (p.cx 0).getLsbD 0 = true ∧ p.cwp ≠ 0) ∧
    (let p := (withPair fun p => { p with eff := [(0x10, 0x10000#32)], cwp := 5, frames := [1, 2, 3] }).pair 0
     p.freeWins < 4 ∧ p.spillBase + p.depth < p.spillLimit) ∧
    (let p := (withPair fun p => { p with cwp := 5, frames := [1, 2, 3] }).pair 0
     p.freeWins < 4 ∧ p.spillLimit ≤ p.spillBase + p.depth) ∧
    (let s := State.reset.setPair 3 { Pair.start 3 with cxr := [(0x20, 0x2008)], eff := [(0x40, 0x27), (0x41, 0x8000), (0x42, 0)] }
     reachTarget (s.pair 3) 0x2008 = some (0x2008, true, true) ∧ reachTarget (s.pair 3) 0x10000000 = none) ∧
    (let s := { (mapped []).setPair 0 { Pair.start 0 with cxr := [(0x2C, 0x2008)], eff := [(0x40, 0x27), (0x41, 0x8000)] } with lines := [] }
     PairTakes s 0 [] [] ∧ (s.pair 0).worldT = false ∧ ((s.pair 0).cx (0x23 + 4 * 3)).getLsbD 31 = false ∧
       reachTarget (s.pair 0) ((s.pair 0).cx (0x20 + 4 * 3)).toNat = some (0x2008, true, true) ∧
       (match devTarget s (svStop 0) 0x2008 0 with | .home h => decide (s.regF .NI_RT 1 0 (svStop 0) (tileStop h) ≠ 3) | _ => false) = true) ∧
    withAction (State.reset.setReg .SEC_ALM_CFG 0 0 5) 0x20 3 = [] ∧ (State.reset.setRegF .CXS_CTL 7 7 1 3).regF .CXS_CTL 7 7 3 = 1 := by
  refine ⟨?_, ?_, ?_, ?_, ?_, ?_, ?_, ?_, ?_, ?_, ?_, ?_, ?_⟩
  all_goals first | decide +kernel | (unfold PairTakes; decide +kernel)

/-- A candidate at 0x20000 with its save area at 0x30000 for a fresh descriptor at 0x40000; a validated descriptor in each state; an image
for CX3 of four bytes, and none. -/
theorem witness_PartitionServices :
    let m : List Host.Cell := [(0x102, 3), (0x104, 0xFF), (0x105, 0x0F), (0x10000, 1), (0x10004, 4), (0x10005, 1), (0x10006, 0x50), (0x10007, 0x4B),
      (0x20000, 1), (0x20005, 1), (0x20006, 0x50), (0x20007, 0x4B), (0x2000E, 0x50), (0x2001A, 3)]
    let s := { (mapped m).setReg .POT_LIMIT (w64 (2 ^ 30)) with keys := [(5, .loaded 1)] }
    s.regF .PV_RSP 63 63 = 0 ∧ pairAlive s 0 = true ∧ validateResult (asked 0x20000 s) 0x20000 0x40000 = 0 ∧
    validateResult (asked 0x20000 s) 0x20000 0x40001 = 2 ∧ validTarget (asked 0x10000 s) 0x10000 = true ∧
    (peek (asked 0x10000 s) (descStateAddr 0x10000) 1 0).1 = 4 ∧ validTarget s 0x20000 = false ∧
    (let r := { s with dram := writeCell s.dram 0x10004 1 }
     validTarget r 0x10000 = true ∧ (stopDescriptor 0x10000 r).isSome = true) ∧
    State.reset.regF .CX3L_STATUS 0 0 = 0 ∧ (State.reset.setRegF .CX3L_POLICY 0 0 1).regF .CX3L_POLICY 0 0 = 1 ∧
    (match cx3Image State.reset with | .error x => x.1 | .ok _ => 0) = 2 ∧
    (match cx3Image (mapped [(0, 4), (6, 0x58), (7, 0x43), (8, 0xC7), (9, 0x4B), (10, 0x67), (11, 0x48)]) with | .ok x => x.2.length | .error x => x.1) = 4 ∧
    isHF (.core 143 .H .sealedW) = true := by
  refine ⟨?_, ?_, ?_, ?_, ?_, ?_, ?_, ?_, ?_, ?_, ?_, ?_, ?_⟩ <;> decide +kernel


/-- Finish may start, with cores released and without; a stop to reach, its step 1 and its ends; Catch, which no Finish keeps out. -/
theorem witness_FinishAndCatch :
    let done := State.reset.setRegF .FIN_STATUS 63 63 1
    let at_ := fun (n : Nat) => (State.reset.setRegF .FIN_STATUS 62 62 1).setRegF .FIN_STATUS 61 58 n
    MayFinish State.reset ∧ MayFinish { State.reset with fin := { State.reset.fin with released := true } } ∧ State.reset.fin.released = false ∧
    (let s := { at_ 1 with fab := { State.reset.fab with finishLevel := true } }
     finishing s = true ∧ 0x7A ∈ allStops ∧ 0x7A ∉ s.fin.taken ∧ s.regF .NI_PORT 2 0 0x7A = 0) ∧
    (finishing (at_ 2) = true ∧ dirtyLeft (at_ 2) = false ∧ flushBusy (at_ 2) = false ∧ (at_ 2).regF .FIN_CFG 16 16 = 0) ∧
    (at_ 4).regF .FIN_STATUS 61 58 = 4 ∧ ((at_ 5).regF .FIN_STATUS 61 58 = 5 ∧ (at_ 5).fin.cx3Open = false) ∧
    (finishDone done = true ∧ done.fin.catching = false ∧ { done with pins := { done.pins with pwrfailN := true } }.pins.pwrfailN = true) ∧
    (State.reset.setRegF .BOOT_STATUS 63 60 2).regF .BOOT_STATUS 63 60 = 2 := by
  unfold MayFinish; decide +kernel

/-- Each supply event's state: fuses loading, a last step of a domain, one that does not come up, one that is switched off, a tile in
reset. -/
theorem witness_PowerAndResets :
    noReset (.cx 2) State.reset = false ∧ noReset (.cx 1) State.reset = true ∧
    (let s := { State.reset with power := { State.reset.power with fusing := true } }
     s.power.off = false ∧ 0 ∉ s.power.stuck ∧ s.power.refclk = true) ∧
    (let s := State.reset.setRegF .PWR_RDY 63 60 7
     mayRaise s 15 = true ∧ nextStep s 15 = some 3 ∧ NMap.find? s.power.slots 15 = none) ∧
    (let s := State.reset.setRegF .PWR_RDY 63 60 0
     mayRaise s 15 = true ∧ nextStep s 15 = some 0 ∧ domainUp s 15 = false ∧ 15 ∉ s.power.stuck ∧ bit (s.reg .PWR_DOM_CTL) 15 = true) ∧
    domainUp State.reset 15 = true ∧
    (finishing State.reset = false ∧ linksDisabled State.reset = true ∧ bit (State.reset.reg .PWR_DOM_CTL) 5 = true ∧
      bit (0xFFDF : W64) 5 = false ∧ ((List.range 8).all fun d => bit (0xFFDF : W64) (d + 8) == bit (State.reset.reg .PWR_DOM_CTL) (d + 8)) = true) ∧
    stopKind (tileStop 71) = some (0, 71) ∧ mayStop State.reset 143 = true ∧ 71 ∉ State.reset.power.tileRst ∧
    (let s := (State.reset.setCore 142 { Core.cold with run := .stopped }).setCore 143 { Core.cold with run := .stopped }
     let s := { s with power := { s.power with tileRst := [71] } }
     tileQuiet s 142 = true ∧ tileQuiet s 143 = true ∧ 71 ∈ s.power.tileRst) ∧
    coreInService State.reset 142 = true ∧ (State.reset.core 142).run = .held := by decide +kernel

/-- Every core in C3 or in WFI, and the package in each state. -/
theorem witness_PackageStates :
    (let s := { State.reset.setRegF .PWR_PKG_CFG 31 16 1 with cores := (List.range 144).map fun n => (n, { Core.cold with run := .c3 }) }
     pkgState s = 0 ∧ s.regF .PWR_PKG_CFG 31 16 ≠ 0 ∧ allIdle s = true ∧ allC3 s = true ∧ (List.range 16).any (midUnit s) = false) ∧
    (∀ k ∈ [1, 2, 3, 4], pkgState (State.reset.setRegF .PWR_PKG_STATUS 3 0 k) = k) ∧
    (State.reset.setRegF .PWR_PKG_STATUS 11 11 1).regF .PWR_PKG_STATUS 11 11 = 1 ∧
    (let s := (State.reset.setReg .GPIO_WAKE (w64 (2 ^ 31)))
     bit (s.reg .GPIO_WAKE) 31 = true ∧ pinDriver s 31 = none) ∧
    (State.reset.setRegF .AO_TIMER 63 63 1).regF .AO_TIMER 63 63 = 1 := by decide +kernel

/-- An empty flash; a boot that waits for commit and one for release; recovery; a pin function that conflicts and one that does not. -/
theorem witness_BootAndPins :
    bootReady State.reset = true ∧ State.reset.fin.catching = false ∧ copyCode State.reset false = 2 ∧ copyCode State.reset true = 2 ∧
    (let s := State.reset.setRegF .BOOT_STATUS 63 60 1
     s.regF .BOOT_STATUS 63 60 = 1 ∧ pairAlive s 0 = true ∧ (∀ d < 8, domainUp s d = true) ∧ (copyRecs s 0).getD [] = []) ∧
    finishDone State.reset = false ∧ recoveryOpen State.reset .debug = false ∧
    (let s := State.reset.setRegF .BOOT_STATUS 63 60 4
     recoveryOpen s .debug = true ∧ s.boot.page.length < 256 ∧ (2 * copySize - 65536) / 65536 * 65536 + 65536 ≤ 2 * copySize) ∧
    fuseLocked State.reset .MUX_FN = false ∧ State.reset.regF .MUX_STATUS 63 63 = 0 ∧
    muxConflict State.reset 9 (w64 (2 ^ 63 + 31 * 32 + 31)) = true ∧ muxConflict State.reset 9 (w64 (2 ^ 63 + 31 * 32 + 30)) = false ∧
    domainUp State.reset 7 = true ∧
    (let s := State.reset.modIo 11 fun x => { x with cfg := 0x401 }
     3 < linkCount s 11 ∧ perstOutput s 11 3 = true ∧ islandUp s 11 = true ∧ serdesUp s = true ∧ persOf s 11 = 1) := by decide +kernel

/-- Stop 11 as a root port of one link that is up, with requester 7 in an untranslated context. -/
def port (f : IoStop → IoStop) : State :=
  (((mapped []).setReg .IO_LINK (w64 (2 ^ 63)) 11 0).setReg .IOTU_ROOT 1 11).modIo 11 fun x => f { x with cfg := 1, ctxs := [⟨7, 0, [0, 0, 0, 0]⟩] }

/-- A TLP of requester 7 for some bytes. -/
def tlp (addr : W64) (len : Nat) : Tlp := { rid := 7, tag := 3, addr, len, relaxed := false, noSnoop := false, ep := false, malformed := false, unsupported := false, link := 0 }

/-- Whether an access of the IOTU succeeds with neither poison nor a target that is no memory. -/
def reads (r : Except (IoFault × Nat) (List Byte × Bool × Bool × State)) : Option (List Byte × Bool × Bool) :=
  match r with | .ok x => some (x.1, x.2.1, x.2.2.1) | .error _ => none
def writes (r : Except (IoFault × Nat) State) : Bool := match r with | .ok _ => true | .error _ => false

/-- A configuration that may be written; a link that trains at 64 GT/s in flit mode; Socket Links, the first and a second that fits and
one that does not; a device read with a link up and down; a tag in use and one held; DMA. -/
theorem witness_LinksAndInbound :
    (bit (State.reset.reg .IO_CFG 11) 63 = false ∧ badIoCfg State.reset 11 0x401 = false ∧ badIoCfg State.reset 11 0x501 = true ∧
      State.reset.regF .IO_CFG 3 0 11 ≠ 4) ∧
    (let s := State.reset.modIo 11 fun x => { x with cfg := 2 }
     islandUp s 11 = true ∧ serdesUp s = true ∧ linkUp s 11 0 = false ∧ 0 < linkCount s 11 ∧ (6#3).toNat ≤ maxRate s 11 ∧ (4#4).toNat ≤ linkWidth s 11 0) ∧
    (let s := State.reset.modIo 11 fun x => { x with cfg := 3 }
     persOf s 11 = 3 ∧ linkUp s 11 0 = false ∧ socketFirst s 11 = none ∧
      let t := ((s.modIo 0 fun x => { x with cfg := 3 }).setReg .IO_LINK (w64 (2 ^ 63)) 0 0).setReg .IO_SL (w64 (2 * 2 ^ 24 + 4)) 0
      socketFirst t 11 = some 0 ∧ socketFits t 0 1 2 4 = true ∧ socketFits t 0 1 1 4 = false) ∧
    (let s := ((State.reset.modIo 11 fun x => { x with cfg := 3 }).setReg .IO_LINK (w64 (2 ^ 63)) 11 0).setReg .IO_SL 4 11
     persOf s 11 = 3 ∧ linkUp s 11 0 = true ∧ bit (s.reg .IO_SL 11) 2 = true ∧ finishing s = false) ∧
    (let p := { mkPacket .RdDev (coreStop 0) (ioStop 11) 9 0x40000000 0 (.core 0) (.io 11) with arg := 8 }
     let s := sent p (port id)
     First s p [] ∧ linkUp s 11 (outLink s p).1 = true ∧ freeTag s 11 = some 0 ∧ linkUp State.reset 11 0 = false ∧
      let t := port fun x => { x with tags := [(5, ⟨0, some p⟩), (6, ⟨0, none⟩)] }
      NMap.find? (t.ioAt 11).tags 5 = some ⟨0, some p⟩ ∧ NMap.find? (t.ioAt 11).tags 6 = some ⟨0, none⟩ ∧ islandUp t 11 = true) ∧
    (let p := { mkPacket .WrPtl (coreStop 0) (ioStop 11) 9 0x40000000 0 (.core 0) (.io 11) with mask := 5 }
     First (sent p (port id)) p [] ∧ (outLink (port id) p).2 = false) ∧
    (let s := port id
     PortTakes s 11 (tlp 0x1FF8 8) ∧ Uncounted s 11 0 ∧ Uncounted s 11 1 ∧ 0x1FF8 / 4096 ≠ s.regF .IOTU_MSI 51 12 11 ∧
      writes (dmaWrite 11 7 0x1FF8 (List.replicate 16 1) false s) = true ∧ reads (dmaRead 11 7 0x1FF8 8 s) = some (List.replicate 8 0, false, false) ∧
      atomSize .cas (tlp 0x1FF8 8) = true ∧ State.reset.regF .IOTU_ROOT 0 0 11 = 0 ∧ s.regF .IOTU_FAULT 63 63 11 = 0) ∧
    (let s := { port (fun x => { x with ctxs := [⟨7, 0, [0, 0, 0, 0x10800]⟩] }) with dram := [(0x10000, 5), (0x10007, 0x80)] }
     (ctxEntry s 11 7).toOption.isSome = true ∧ (remapDeliver 11 ⟨7, 0, [0, 0, 0, 0x10800]⟩ 0 s).toOption.isSome = true) := by
  refine ⟨?_, ?_, ?_, ?_, ?_, ?_, ⟨?_, ?_, ?_, ?_, ?_, ?_, ?_, ?_, ?_⟩, ?_⟩
  all_goals first | decide +kernel | (unfold First; decide +kernel) | (unfold PortTakes; decide +kernel) | (unfold Uncounted; decide +kernel)


/-- Stop 0 as an endpoint with its link up, one VF with its enables set, and its own domain and queue. -/
def endpoint (f : EpFn → EpFn) : State :=
  let s := ((((mapped []).setReg .IO_LINK (w64 (2 ^ 63)) 0 0).setReg .IOTU_ROOT 1 0).setRegF .EP_CTL 10 0 1 0).modIo 0 fun x =>
    { x with cfg := 4, ctxs := [⟨7, 0, [0, 0, 0, 0]⟩] }
  let s := (s.modFn 0 fun f => { f with vfe := true }).modFn 1 fun x => f { x with mse := true, bme := true }
  s.setReg .EP_VF0 (w64 (2 ^ 63)) 0 1

/-- Ring 255 of stop 0, enabled for the VF under requester 7, with one descriptor from host to device at 0x2000. -/
def ring (f : EpFn → EpFn) (d : List Host.Cell) : State :=
  { (((endpoint f).setReg .EP_RCFG (w64 (2 ^ 63 + 7 * 2 ^ 16 + 1)) 0 255).setReg .EP_RBASE 0x2000 0 255).setReg .EP_RTAIL 1 0 255 with dram := d }

theorem witness_EndpointFunctions :
    (State.reset.regF .EP_CTL 16 16 0 ≠ true.toNat ∧ allQuiet State.reset = true ∧ allQuiet (endpoint id) = false) ∧
    ((State.reset.fnAt 1024).mse = false ∧ isHF (.core 0 .H .openW) = true) ∧
    (let s := endpoint id
     epUp s = true ∧ fnPresent s 1 = true ∧ (s.fnAt 1).flr = false ∧ finishing s = false ∧ (s.fnAt 1).mse = true ∧
       bit (s.reg .EP_VF0 0 1) 63 = true ∧ swHalted s = false ∧ (0x3FC#12).toNat + 4 ≤ 0x400 ∧ (15#64).toNat < 16 ∧
       queueLive (setQF .SWQ_CTL 0 0 0 1 s) 0 = true ∧ fnPresent s 2 = false) ∧
    (let s := ring id []
     activeEp s = 0 ∧ bit (s.reg .EP_RCFG 0 255) 63 = true ∧ s.reg .EP_RTAIL 0 255 ≠ s.reg .EP_RHEAD 0 255 ∧ (s.fnAt 1).flr = false ∧
       ((ring (fun f => { f with flr := true }) []).fnAt 1).flr = true ∧ ((ring (fun f => { f with bme := false }) []).fnAt 1).bme = false) ∧
    (let at_ := fun (op : Byte) => reads (dmaRead 0 7 0x2000 32 (ring id [(0x2000, op), (0x2004, 8), (0x2011, 0x30)]))
     at_ 1 = some ([1, 0, 0, 0, 8] ++ List.replicate 12 0 ++ [0x30] ++ List.replicate 14 0, false, false) ∧ (at_ 2).isSome = true ∧
       reads (dmaRead 0 7 0x3000 8 (ring id [])) = some (List.replicate 8 0, false, false) ∧
       writes (dmaWrite 0 7 0x3000 (List.replicate 8 1) false (ring id [])) = true) ∧
    (63 < fnVectors 1 ∧ 2047 < fnVectors 0 ∧ fld (w64 (1 * 2 ^ 32 + 63)) 42 32 = 1) ∧
    (msixOpen { EpFn.cold with msix := true, bme := true, mask := 0 } 2047 = true ∧ msixOpen EpFn.cold 0 = false) ∧
    (let s := endpoint fun f => { f with flr := true }
     (s.fnAt 1).flr = true ∧ (s.fnAt 1).flrAgain = false ∧ (s.ioAt (activeEp s)).perstIn = true ∧ persOf s 0 = 4) ∧
    (((endpoint id).modIo 0 fun x => { x with perstIn := false }).ioAt 0).perstIn = false := by
  refine ⟨?_, ?_, ?_, ?_, ?_, ?_, ?_, ?_, ?_⟩ <;> decide +kernel

/-- A record of the boot island. -/
def anError (cls : ErrClass) : ErrRec := mkRec cls 0x02 0x53 0x01 0

/-- A bank with its first three slots valid takes the fourth. -/
theorem witness_ErrorsAndSecurity :
    (let s := [0, 1, 2].foldl (fun s k => s.setReg .ERR_STATUS (w64 (2 ^ 63 + 2 ^ 60)) (bankBase (.sv 3)) k) State.reset
     (anError .corrected).secret = false ∧ placeRecord s (.sv 3) (anError .corrected) = .take 3 ∧
       (takeInj s (.sv 3) (anError .corrected)) = (anError .corrected, s)) ∧
    ([Resource.tile 71, .channel 15, .sweep 15, .io 11].all (inServiceNow State.reset) = true) ∧ bit (State.reset.reg .CXS_CTL 2) 0 = true ∧
    (let s := { (State.reset.setRegF .CXS_CTL 0 0 0 2).setRegF .RAS_CFG 1 0 0 with boot := { State.reset.boot with logPos := 64 } }
     pairAlive s 2 = true ∧ s.boot.logPos % sectorSize ≠ 0 ∧
       [0, 1, 3].all (fun c => let t := (s.setReg .ERR_STATUS (w64 (2 ^ 63 + c * 2 ^ 60)) (bankBase (.sv 3)) 3).setReg .ERR_CTL 15 (bankBase (.sv 3))
         bit (t.reg .ERR_STATUS (bankBase (.sv 3)) 3) 63 && bit (t.reg .ERR_CTL (bankBase (.sv 3))) c &&
           fld (t.reg .ERR_STATUS (bankBase (.sv 3)) 3) 61 60 == c && t.regF .RAS_CFG 1 0 == 0) = true) ∧
    (bankThere (.io 11) = true ∧ State.reset.regF .SEC_INJ_EN 0 0 = 0 ∧ (State.reset.setRegF .SEC_INJ_EN 0 0 1).regF .SEC_INJ_EN 0 0 = 1) ∧
    ((withAction (State.reset.setReg .SEC_ALM_CFG 6 0 4) 0x10 1 = [4] ∧ withAction (State.reset.setReg .SEC_ALM_CFG 6 0 4) 0x10 2 = [4] ∧
      withAction (State.reset.setReg .SEC_ALM_CFG 6 0 4) 0x10 3 = [] ∧ withAction (State.reset.setReg .SEC_ALM_CFG 8 0 7) 0x80 3 = [7]) ∧
      State.reset.regF .SEC_ALM_LOG 55 48 = 0) ∧
    (let s := { State.reset with fab := { State.reset.fab with lane := [(mcStop 15, 1, 0)] } }
     (s.fab.lane.find? fun x => x.1 == mcStop 15 && x.2.1 == 1) = some (mcStop 15, 1, 0)) ∧
    (pairAlive State.reset 0 = true ∧ isF (.core 0 .F .openW) = true ∧ fld (State.reset.reg .SEC_DBG_TOK 0 0) 63 40 ≠ 0x445401) ∧
    (takePacket (trngPacket (.cx 0)) State.reset = none ∧ trngReader (.cx 0) = true ∧ trngReader (.cx 3) = false) ∧
    (∀ v ∈ [0, 1, 2], (State.reset.setRegF .TRNG_STATUS 1 0 v).regF .TRNG_STATUS 1 0 = v) ∧
    ((recentFailures State.reset).length < 2 ∧
      recentFailures { State.reset with timeUs := 1000000, sec := { State.reset.sec with failures := [0, 1] } } = [1]) := by
  refine ⟨⟨?_, ?_, ?_⟩, ?_, ?_, ?_, ?_, ?_, ?_, ?_, ?_, ?_, ?_⟩ <;> decide +kernel

/-- The last counter of the last core; a sample for the ring, in memory and outside it, and one to read; ERG_GCTL busy and not, with an
op that waits; messages of each kind at a tile; frames with a right CRC and a wrong one. -/
theorem witness_ErgAndDebug :
    (let s := State.reset.setCore 143 { Core.cold with run := .running }
     (s.core 143).ergStopped = false ∧ (s.core 143).run = .running ∧ (stopKind 0x7A).isSome = true ∧ 0x7A ∉ s.frozen) ∧
    (let c := ({ Core.cold with run := .running, smp := ⟨[[1, 2]], 0, 0, 0⟩ }.setErg 0x60 (w64 (2 ^ 56)))
     let s := (mapped []).setCore 143 c
     (s.core 143).smp.recs = [1, 2] :: [] ∧ bit ((s.core 143).erg 0x60) 56 = true ∧ bit ((s.core 143).erg 0x64) 63 = false ∧
       ringHeld (s.core 143) ≠ ringRecords (s.core 143) ∧ (ownership s (coreStop 143) none 0 12 0 0).toOption.isSome = true ∧
       (ownership (((mapped []).setReg .SAM_RADDR (w64 (2 ^ 63 + 2 ^ 33)) 0 0).setReg .POT_LIMIT (w64 (2 ^ 30))) (coreStop 143) none (2 ^ 30) 12 (2 ^ 30) 0).toOption.isSome = false) ∧
    (coreReady (withCore id) 0 = true ∧ sysFault ((withCore id).core 0) 3 0x77 false = none) ∧
    (gctlWriter (.cx 1) = false ∧ gctlWriter .debug = true ∧ State.reset.regF .ERG_GCTL 63 63 = 0 ∧
      (State.reset.setRegF .ERG_GCTL 63 63 1).regF .ERG_GCTL 63 63 = 1 ∧ (State.reset.setRegF .ERG_GCTL 51 48 15).regF .ERG_GCTL 51 48 = 15) ∧
    (let s := ((State.reset.modIo 11 fun x => { x with cfg := 3 }).setReg .IO_LINK (w64 (2 ^ 63)) 11 0).setReg .IO_SL 8 11
     persOf s 11 = 3 ∧ linkUp s 11 0 = true ∧ bit (s.reg .IO_SL 11) 3 = true) ∧
    ([(2, 0), (4, 0), (3, 15)].all (fun k => ({ State.reset with fab := { State.reset.fab with lane := [(tileStop 71, k.1, k.2)] } }.fab.lane.find? fun x =>
      x.1 == tileStop 71 && x.2.1 == k.1) == some (tileStop 71, k.1, k.2)) = true ∧ State.reset.regF .NI_PORT 2 0 (tileStop 71) = 0) ∧
    (let s := State.reset.setReg .SEC_DBG_EN 1
     invasive s ((withCore id).core 0) = true ∧ invasive State.reset ((withCore id).core 0) = false) ∧
    (let body : List Byte := [1, 0, 0x00, 0x00, 0x00, 0x72] ++ List.replicate 8 0
     let f := body ++ leBytes 4 (crc32c body)
     f.length = 18 ∧ crc32c (f.take 14) = leNat (f.drop 14) ∧ crc32c (List.replicate 14 0) ≠ leNat (List.replicate 4 (0 : Byte)) ∧
       leNat ((f.drop 2).take 4) / 8 * 8 = 0x72000000 ∧ (stopKind (0x72000000 >>> 24)).isSome = true ∧ inNi 0x72000000 = false ∧ 0x72000000 ≠ trngOut ∧
       State.reset.regF .NI_RT 1 0 0x02 0x72 ≠ 3 ∧ domainUp State.reset 1 = true ∧ State.reset.power.off = false) ∧
    ({ State.reset with pins := { State.reset.pins with dbgPresentN := false } }.pins.dbgPresentN = false) := by
  refine ⟨?_, ?_, ?_, ?_, ?_, ?_, ?_, ?_, ?_⟩ <;> decide +kernel

theorem witness_StepKeepsDoorbell :
    (State.reset.pair 3).pend.getLsbD 62 = (State.reset.reg .CX3_MBDB).getLsbD 0 ∧
    (let s := (State.reset.setReg .CX3_MBDB 1).modPair 3 fun p => { p with pend := 1#64 <<< 62 }
     (s.pair 3).pend.getLsbD 62 = (s.reg .CX3_MBDB).getLsbD 0) := by decide +kernel

/-! ## One step each: values from the tables of the specification, or worked out by hand from them -/

/-- g1 = `x` and g2 = `y` in core 0. -/
def operands (x y : W64) : State := withCore fun c => (c.setG 1 x).setG 2 y

/-- g3 of core 0. -/
def result (s : State) : W64 := (s.core 0).getG 3

theorem test_add_wraps : result (after (.add (.core 0) 3 1 2) (operands (-1) 1)) = 0 := by decide +kernel
theorem test_write_of_g0_is_discarded : ((after (.add (.core 0) 0 1 2) (operands 5 1)).core 0).getG 0 = 0 := by decide +kernel
theorem test_addw_extends_the_sign : result (after (.addw (.core 0) 3 1 2) (operands 0x7FFFFFFF 1)) = 0xFFFFFFFF80000000 := by decide +kernel
theorem test_sll_uses_six_bits : result (after (.sll (.core 0) 3 1 2) (operands 3 65)) = 6 := by decide +kernel
theorem test_clz_of_zero_width : result (after (.clz (.core 0) 3 1) (operands 1 0)) = 63 := by decide +kernel
theorem test_div_by_zero : result (after (.div (.core 0) 3 1 2) (operands 7 0)) = -1 := by decide +kernel
theorem test_div_overflow : result (after (.div (.core 0) 3 1 2) (operands (BitVec.intMin 64) (-1))) = BitVec.intMin 64 := by decide +kernel
theorem test_rem_by_zero : result (after (.rem (.core 0) 3 1 2) (operands 7 0)) = 7 := by decide +kernel
theorem test_rem_has_the_sign_of_the_dividend : result (after (.rem (.core 0) 3 1 2) (operands (-7) 2)) = -1 := by decide +kernel
theorem test_mulhu : result (after (.mulhu (.core 0) 3 1 2) (operands (-1) (-1))) = -2 := by decide +kernel
theorem test_ori_extends_with_zeros : result (after (.ori (.core 0) 3 1 0x3FFF) (operands 0 0)) = 0x3FFF := by decide +kernel
theorem test_andi_extends_the_sign : result (after (.andi (.core 0) 3 1 0x3FFF) (operands (-2) 0)) = -2 := by decide +kernel
theorem test_the_pc_moves_by_a_word : ((after (.add (.core 0) 3 1 2) (operands 0 0)).core 0).pc = 4 := by decide +kernel

/-- The check value of CRC-32C for the nine digits "123456789". -/
theorem test_crc32c : crc32c [0x31, 0x32, 0x33, 0x34, 0x35, 0x36, 0x37, 0x38, 0x39] = 0xE3069283 := by decide +kernel

/-- Of two commands that wait, the first acts and the second stays. -/
theorem test_queue_is_first_in_first_out :
    (match step { operands 5 6 with pending := [.add (.core 0) 3 1 2, .sub (.core 0) 3 1 2] } with
      | .next t => (result t, t.pending)
      | _ => (0, [])) = (11, [.sub (.core 0) 3 1 2]) := by decide +kernel

/-- The table gives no row any bits. -/
theorem test_no_row_has_bits : decodeTableWord 32 0x04000000 = none ∧ State.reset.withFetchWord 32 0x04000000 = State.reset := by decide +kernel

end Sys2Proof.Tests
end

/-! Proofs of the statements on the scope of the model: the state after reset (O60) and the registers of Chip Register Space (O42). -/

namespace Sys2Proof.Scope

open Sys2Proof.Machine Sys2Proof.Claims

/-! ## The state after reset -/

theorem reset_doorbellShown : DoorbellShown State.reset := by
  unfold DoorbellShown
  decide +kernel

/-- CX0 alone is out of reset (R410). -/
theorem reset_pairAlive (k : Nat) (h : k < 4) : pairAlive State.reset k = decide (k = 0) := by
  revert k
  decide +kernel

/-- Settles O60: tables that list nothing read as their defaults, a held core and the start of a pair; the Cold values of
CXS_CTL say which pairs run. -/
theorem resetState : Obligations.ResetState := by
  refine ⟨reset_doorbellShown, wf_reset, rfl, rfl, fun _ => rfl, reset_pairAlive 0 (by decide), fun k hk => ?_, rfl, rfl, rfl⟩
  obtain ⟨hk4, hk0⟩ : k < 4 ∧ k ≠ 0 := by
    simp only [List.mem_cons, List.not_mem_nil, or_false] at hk
    omega
  rw [reset_pairAlive k hk4, decide_eq_false hk0]

/-! ## A register read by a requester that the part does not have -/

/-- A register read whose requester names no stop leaves the state as it is (log entry 23), also where its packet is in flight. -/
theorem exec_regrd_of_no_stop (r : Req) (off tid : Nat) (s : State) (h : stopKind (reqStop r) = none) :
    exec (.regrd r off tid) s = answer s s := by
  show answer s (withRegRequest .RegRd r off tid 0 0 _ s) = answer s s
  simp [withRegRequest, h]

/-- What a command that does nothing completes in has the packets of the state it found. -/
theorem net_of_settles_idle {s u : State} (h : Settles u (answer s s)) : u.fab.net = s.fab.net := by
  obtain ⟨t, ht, hu, -⟩ := h
  rw [answer_next] at ht
  cases ht
  exact (congrArg (fun x : State => x.fab.net) hu).symm

/-- The requester after the last I/O stop: the number 12 names none, and column 13 of row 7 is no stop of Table 01-1. -/
def absentIo : Req := .io 12

/-- The offset of NI_WD_CFG of SV2. -/
def wdCfgOff : Nat := RegName.NI_WD_CFG.key 0x72 0

/-- The request for that register from where I/O stop 12 would stand. -/
def strayRead : Packet := mkPacket .RegRd (reqStop absentIo) 0x72 4 wdCfgOff 0 .ni .ni

/-- The state after reset with that request in the fabric. -/
def strayState : State := send strayRead State.reset

theorem absentIo_no_stop : stopKind (reqStop absentIo) = none := by decide

theorem wdCfgOff_stands : Stands strayState absentIo wdCfgOff .NI_WD_CFG 0x72 0 := by
  unfold Stands
  decide +kernel

theorem strayRead_first : First strayState strayRead [] := by
  unfold First
  decide +kernel

/-- Refutes O42: its clause on register reads does not say that the requester is one the part has. A read of NI_WD_CFG of SV2 in
flight from I/O stop 12 meets every hypothesis of the clause, yet REGRD for a unit that is absent leaves the packet where it is (log
entry 23), so the fabric still holds a RegRd and no RegCmp. -/
theorem not_registers : ¬ Obligations.Registers := by
  unfold Obligations.Registers
  intro ⟨_, _, reads, _, _⟩
  obtain ⟨q, hq, hop, -⟩ := reads absentIo wdCfgOff .NI_WD_CFG 0x72 0 4 strayRead strayState (by decide) wdCfgOff_stands
    strayRead_first rfl rfl (by decide) rfl rfl rfl
  rw [exec_regrd_of_no_stop _ _ _ _ absentIo_no_stop] at hq
  have hnet : [q] = [strayRead] := net_of_settles_idle hq
  obtain rfl : q = strayRead := List.singleton_inj.mp hnet
  exact absurd hop (by decide)

end Sys2Proof.Scope

/-! Proofs of the statement on interrupts taken and partitions stopped (O27). -/

namespace Sys2Proof.Pipeline

open Sys2Proof.Machine Sys2Proof.Claims

/-! ## Fields of a word -/

/-- `w` bits from `lo` on replaced by those of `x`. -/
theorem testBit_replaceField (m lo w x i : Nat) :
    (m - m / 2 ^ lo % 2 ^ w * 2 ^ lo + x % 2 ^ w * 2 ^ lo).testBit i =
      if lo ≤ i ∧ i < lo + w then x.testBit (i - lo) else m.testBit i := by
  obtain ⟨low, old, top, hlow, hold, rfl⟩ : ∃ low old top, low < 2 ^ lo ∧ old < 2 ^ w ∧ m = 2 ^ lo * (2 ^ w * top + old) + low :=
    ⟨m % 2 ^ lo, m / 2 ^ lo % 2 ^ w, m / 2 ^ lo / 2 ^ w, Nat.mod_lt _ (Nat.two_pow_pos _), Nat.mod_lt _ (Nat.two_pow_pos _), by
      rw [Nat.div_add_mod, Nat.div_add_mod]⟩
  have hfield : (2 ^ lo * (2 ^ w * top + old) + low) / 2 ^ lo % 2 ^ w = old := by
    rw [Nat.mul_add_div (Nat.two_pow_pos _), Nat.div_eq_of_lt hlow, Nat.add_zero, Nat.mul_add_mod, Nat.mod_eq_of_lt hold]
  have hset : 2 ^ lo * (2 ^ w * top + old) + low - old * 2 ^ lo + x % 2 ^ w * 2 ^ lo =
      2 ^ lo * (2 ^ w * top + x % 2 ^ w) + low := by
    rw [Nat.mul_add, Nat.mul_add, Nat.mul_comm old, Nat.mul_comm (x % _)]
    omega
  rw [hfield, hset, Nat.testBit_two_pow_mul_add _ hlow, Nat.testBit_two_pow_mul_add _ hlow,
    Nat.testBit_two_pow_mul_add _ (Nat.mod_lt _ (Nat.two_pow_pos _)), Nat.testBit_two_pow_mul_add _ hold, Nat.testBit_mod_two_pow]
  by_cases below : i < lo
  · rw [if_pos below, if_pos below, if_neg (by omega)]
  · rw [if_neg below, if_neg below]
    by_cases inside : i - lo < w
    · rw [if_pos inside, if_pos (by omega), decide_eq_true inside, Bool.true_and]
    · rw [if_neg inside, if_neg inside, if_neg (by omega)]

/-- A field written reads as the value's bits; every other bit stays. -/
theorem getLsbD_setFld (v : W64) {hi lo i : Nat} (x : Nat) (h : lo ≤ hi) (hi64 : i < 64) :
    (setFld v hi lo x).getLsbD i = if lo ≤ i ∧ i ≤ hi then x.testBit (i - lo) else v.getLsbD i := by
  have hin : (lo ≤ i ∧ i ≤ hi) ↔ (lo ≤ i ∧ i < lo + (hi + 1 - lo)) := by omega
  simp only [setFld, Nat.shiftRight_eq_div_pow, BitVec.getLsbD_ofNat, testBit_replaceField, hi64, decide_true, Bool.true_and, hin]
  rfl

/-- A number below 2 ^ k has no bit from k on. -/
theorem getLsbD_ofNat_of_lt {x k i : Nat} (hx : x < 2 ^ k) (hi : k ≤ i) : (BitVec.ofNat 64 x).getLsbD i = false := by
  rw [BitVec.getLsbD_ofNat, Nat.testBit_lt_two_pow (Nat.lt_of_lt_of_le hx (Nat.pow_le_pow_right (by decide) hi)), Bool.and_false]

/-- X_STATUS as trap entry leaves it (R99): pie takes ie, ie is 0, pl the old level. -/
theorem trapStatus_eq (st : W64) (l : Level) :
    setFld (setBit (setBit st 1 (bit st 0)) 0 false) 5 4 (levelNum l) =
      (st &&& ~~~0x33#64) ||| BitVec.ofNat 64 (16 * levelNum l + 2 * (st.toNat % 2)) := by
  have hie : st.toNat % 2 = (bit st 0).toNat := by
    rw [bit, BitVec.getLsbD, Nat.testBit_zero]
    rcases Nat.mod_two_eq_zero_or_one st.toNat with h | h <;> simp [h]
  rw [hie]
  refine BitVec.eq_of_getLsbD_eq fun i hi => ?_
  simp only [setBit, getLsbD_setFld _ _ (Nat.le_refl _) hi, getLsbD_setFld _ _ (show 4 ≤ 5 by decide) hi, BitVec.getLsbD_or,
    BitVec.getLsbD_and, BitVec.getLsbD_not, hi, decide_true, Bool.true_and]
  generalize bit st 0 = ie
  match i with
  | 0 | 1 | 2 | 3 | 4 | 5 => cases ie <;> cases l <;> simp [levelNum, Nat.testBit_eq_decide_div_mod_eq]
  | j + 6 =>
    have hword : 16 * levelNum l + 2 * ie.toNat < 2 ^ 6 := by cases ie <;> cases l <;> decide
    rw [getLsbD_ofNat_of_lt hword (by omega), getLsbD_ofNat_of_lt (by decide : 0x33 < 2 ^ 6) (by omega)]
    simp

/-! ## System registers and SYNC -/

theorem sys_setSys (c : Core) (w u : World) (l m i j : Nat) (v : W64) :
    (c.setSys w l i v).sys u m j = if sysKey u m j = sysKey w l i then v else c.sys u m j := NMap.get_set ..

/-- SYNC changes the values in force and the predictors alone (R84, R147). -/
theorem sync_eq (c : Core) : c.sync = { c with eff := c.sync.eff, pred := c.sync.pred } := by
  unfold Core.sync
  dsimp only
  split <;> rfl

theorem sync_sysr (c : Core) : c.sync.sysr = c.sysr := by rw [sync_eq]
theorem sync_g (c : Core) : c.sync.g = c.g := by rw [sync_eq]
theorem sync_running (c : Core) : c.sync.running = c.running := by rw [sync_eq]

/-! ## What monitoring leaves of a core -/

theorem alike_setSys {c d : Core} (h : Core.Alike c d) (w : World) (l i : Nat) (v : W64) :
    Core.Alike (c.setSys w l i v) (d.setSys w l i v) := by
  obtain ⟨hfields, hsys⟩ := h
  refine ⟨by rw [hfields]; rfl, fun u m j hm hj hpend => ?_⟩
  rw [sys_setSys, sys_setSys, hsys u m j hm hj hpend]

theorem alike_of_unseen {n : Nat} {s t : State} (h : Unseen n s t) (m : Nat) : Core.Alike (s.core m) (t.core m) := h.2.1 m

/-- A change that respects what monitoring leaves can follow the monitoring or come before it. -/
theorem unseen_modCore_congr {n : Nat} {a b : State} (h : Unseen n a b) (m : Nat) (f : Core → Core)
    (hf : Core.Alike (f (a.core m)) (f (b.core m))) : Unseen n (a.modCore m f) (b.modCore m f) := by
  obtain ⟨hfields, hcores, hpairs, hregs⟩ := h
  refine ⟨congrArg (fun u : State => { u with cores := (b.modCore m f).cores }) hfields, fun j => ?_, hpairs, hregs⟩
  by_cases hj : j = m
  · subst hj; simpa using hf
  · rw [State.core_modCore_ne _ _ hj, State.core_modCore_ne _ _ hj]; exact hcores j

/-- Of two writes of one core the second counts. -/
theorem unseen_setCore_modCore (n : Nat) (s : State) (c : Core) (f : Core → Core) :
    Unseen n (s.setCore n (f c)) ((s.setCore n c).modCore n f) := by
  refine ⟨rfl, fun j => ?_, .refl _, fun _ _ => rfl⟩
  by_cases hj : j = n
  · subst hj; simpa using Core.Alike.refl _
  · rw [State.core_modCore_ne _ _ hj, State.core_setCore_ne _ _ hj, State.core_setCore_ne _ _ hj]; exact .refl _

/-! ## The first fetch at a vector (R101) -/

/-- A core's translation context and TLB are none of what monitoring leaves. -/
theorem coreCtx_of_alike {s t : State} {n : Nat} (h : Core.Alike (s.core n) (t.core n)) (l : Level) :
    coreCtx t n l = coreCtx s n l := by
  unfold coreCtx
  rw [h.1]
  rfl

theorem tlbHit_of_alike {s t : State} {n : Nat} (h : Core.Alike (s.core n) (t.core n)) (x : XCtx) (va : Nat) :
    tlbHit t n x va = tlbHit s n x va := by
  unfold tlbHit
  rw [h.1]

/-- Where the translation of the pc is at hand, the fetch does not fault, whatever monitoring has left in between. -/
theorem fetchFault_of_fetches {s t : State} {n : Nat} {d : Core} (hfetch : Fetches s n d)
    (ht : Core.Alike ((s.setCore n d).core n) (t.core n)) : fetchFault t n d.level d.pc = none := by
  obtain ⟨e, hit, permits, hmt⟩ := hfetch
  unfold fetchFault
  simp only [coreCtx_of_alike ht, tlbHit_of_alike ht, hit, permits, if_neg hmt]

/-! ## Entering a level (R99) -/

/-- A core as trap entry leaves it, before its first fetch: the registers of level `x` saved, the pc at the vector. -/
def atVector (x : Level) (off : Nat) (epc word tval : W64) (c : Core) : Core :=
  let c := { c.saveTrap x epc word tval with resv := none, wait := none }
  { c with level := x, pc := vectorPc c x off, run := .running }

/-- Where the first fetch does not fault, entry is SYNC and then `atVector`. -/
theorem enterLevel_of_fetch (n fuel : Nat) (x : Level) (off : Nat) (epc word tval : W64) (s : State)
    (h : fetchFault ((syncCore n s).modCore n (atVector x off epc word tval)) n x
      (((syncCore n s).modCore n (atVector x off epc word tval)).core n).pc = none) :
    enterLevel n fuel x off epc word tval s = (syncCore n s).modCore n (atVector x off epc word tval) := by
  unfold atVector at h ⊢
  unfold enterLevel
  simp only [h]

theorem alike_atVector {c d : Core} (h : Core.Alike c d) (x : Level) (off : Nat) (epc word tval : W64) :
    Core.Alike (atVector x off epc word tval c) (atVector x off epc word tval d) := by
  have hstatus : d.sys c.world (levelNum x) 0 = c.sys c.world (levelNum x) 0 :=
    h.2 _ _ _ (by cases x <;> decide) (by decide) (.inl (by decide))
  have hworld : d.world = c.world := by rw [h.1]
  have hlevel : d.level = c.level := by rw [h.1]
  have hsave : Core.Alike (c.saveTrap x epc word tval) (d.saveTrap x epc word tval) := by
    unfold Core.saveTrap
    simp only [hworld, hlevel, hstatus]
    exact alike_setSys (alike_setSys (alike_setSys (alike_setSys h ..) ..) ..) ..
  refine ⟨?_, hsave.2⟩
  unfold atVector
  rw [hsave.1]
  rfl

/-- After SYNC that is `entered`, on a core that runs and waits for nothing. -/
theorem atVector_synced (x : Level) (off : Nat) (word tval : W64) (c : Core) (hrun : c.run = .running) (hwait : c.wait = none) :
    atVector x off c.pc word tval (synced c) = entered x off word tval c := by
  unfold atVector entered Core.saveTrap synced
  rw [sync_eq]
  simp only [trapStatus_eq]
  rw [← hrun, ← hwait]
  rfl

/-- SYNC on a core with no store waiting (R83). -/
theorem unseen_syncCore (n : Nat) (s : State) (hsq : (s.core n).sq = []) :
    Unseen n (s.setCore n (synced (s.core n))) (syncCore n s) := by
  have hdrain : drainStores n s = s.setCore n { s.core n with granted := (s.core n).granted.filter fun g => !g.2 } := by
    unfold drainStores State.modCore
    simp only [hsq, List.foldl_nil]
  unfold syncCore
  rw [hdrain]
  exact (unseen_setCore_modCore n s _ Core.sync).trans (unseen_ergEvent ..)

/-- Entry at a vector whose fetch is permitted, by a core that runs with no store waiting, leaves the core of `entered`. -/
theorem unseen_enterLevel (n fuel : Nat) (x : Level) (off : Nat) (word tval : W64) (s : State) (hrun : (s.core n).run = .running)
    (hwait : (s.core n).wait = none) (hsq : (s.core n).sq = []) (hfetch : Fetches s n (entered x off word tval (s.core n))) :
    Unseen n (s.setCore n (entered x off word tval (s.core n))) (enterLevel n fuel x off (s.core n).pc word tval s) := by
  have hsync := unseen_syncCore n s hsq
  have hentry : Unseen n (s.setCore n (entered x off word tval (s.core n)))
      ((syncCore n s).modCore n (atVector x off (s.core n).pc word tval)) := by
    rw [← atVector_synced x off word tval _ hrun hwait]
    exact (unseen_setCore_modCore ..).trans (unseen_modCore_congr hsync n _ (alike_atVector (alike_of_unseen hsync n) ..))
  have hpc : (((syncCore n s).modCore n (atVector x off (s.core n).pc word tval)).core n).pc =
      (entered x off word tval (s.core n)).pc := by
    rw [(alike_of_unseen hentry n).1, State.core_setCore_same]
  have hfault := fetchFault_of_fetches hfetch (alike_of_unseen hentry n)
  rw [← hpc] at hfault
  rw [enterLevel_of_fetch n fuel x off _ word tval s hfault]
  exact hentry

/-! ## Leaving a partition (R109, R110) -/

/-- The core `c` has left the partition of `r` for H, with a reason and a qualification in H_EXITR and H_EXITQ. -/
def LeftPartition (r : Running) (reason q : Nat) (c : Core) : Prop :=
  c.world = .openW ∧ c.level = .H ∧ c.g = [] ∧ c.running = none ∧
    c.sys .openW 2 0x0C = w64 (r.part * 256 + reason) ∧ c.sys .openW 2 0x0D = w64 q

/-- Step 5 of R109: the scrub of Table 03-15, after which only monitoring touches the core. -/
theorem leavePartition_scrubs (n : Nat) (r : Running) (pc : W64) (st : Nat) (s : State) :
    ((leavePartition n r pc st s).core n).g = [] ∧ ((leavePartition n r pc st s).core n).running = none := by
  unfold leavePartition
  dsimp only
  generalize pokeNat (descStateAddr r.desc) 0 1 st _ = u
  rw [(alike_of_unseen (unseen_ergEvent n (u.core n) 0x00D none 1 (u.modCore n Core.scrub)) n).1, State.core_modCore_same]
  exact ⟨rfl, rfl⟩

/-- Partition exit leaves the core as R109 says, whatever the stores and the save area before it have changed. -/
theorem leftPartition_partitionExit (n reason q : Nat) (pc : W64) (s : State) (r : Running) (hr : (s.core n).running = some r) :
    LeftPartition r reason q ((partitionExit n reason q pc s).core n) := by
  unfold partitionExit
  simp only [hr, State.core_modCore_same]
  obtain ⟨hg, hrunning⟩ := leavePartition_scrubs n r pc (if (peek s (descStateAddr r.desc) 1 0).1 = 3 then 4 else 1) s
  generalize (leavePartition n r pc _ s).core n = c at hg hrunning ⊢
  simp [LeftPartition, Core.setSys, Core.sys, NMap.get_set, sysKey, sync_sysr, sync_g, sync_running, hg, hrunning]

/-- The core stays so to the end of the command. -/
theorem answer_partitionExit (n reason q : Nat) (pc : W64) (s : State) (r : Running) (hr : (s.core n).running = some r) :
    ∃ t, answer s (partitionExit n reason q pc s) = .next t ∧ LeftPartition r reason q (t.core n) :=
  ⟨_, answer_next .., leftPartition_partitionExit n reason q pc s r hr⟩

/-! ## The two events -/

/-- A core that executes stands at a retire boundary (R168). -/
theorem atBoundary_of_coreReady {s : State} {n : Nat} (h : coreReady s n = true) :
    atBoundary s n = true ∧ (s.core n).run = .running ∧ (s.core n).wait = none := by
  simp only [coreReady, Bool.and_eq_true, decide_eq_true_eq, Option.isNone_iff_eq_none] at h
  obtain ⟨⟨hn, hrun⟩, hwait⟩ := h
  exact ⟨by simp [atBoundary, hn, hrun, hwait], hrun, hwait⟩

/-- INTERRUPT_ENTRY at a retire boundary takes the interrupt that is due. -/
theorem exec_interruptEntry_of_due {s : State} {n : Nat} {x : Level} {v : Nat} (hready : coreReady s n = true)
    (hsync : syncBlocked s n = false) (hdue : interruptDue s n = some (x, v)) :
    exec (.interruptEntry n) s = answer s (takeInterrupt n x v s) := by
  change execInterruptEntry n s = _
  simp [execInterruptEntry, takeDue, (atBoundary_of_coreReady hready).1, hsync, hdue]

/-- PARTITION_STOP_EXIT at a retire boundary leaves a partition in state 3 (R111). -/
theorem exec_partitionStopExit_of_stopped {s : State} {n : Nat} {r : Running} (hready : coreReady s n = true)
    (hsync : syncBlocked s n = false) (hr : (s.core n).running = some r) (hstate : (peek s (descStateAddr r.desc) 1 0).1 = 3) :
    exec (.partitionStopExit n) s = answer s (partitionExit n 0x23 0 (s.core n).pc s) := by
  change execPartitionStopExit n s = _
  simp [execPartitionStopExit, (atBoundary_of_coreReady hready).1, hsync, hr, hstate]

/-- An H interrupt of a partition leaves it, with the vector as qualification (R110, R576). -/
theorem takeInterrupt_sealed_H (n v : Nat) (s : State) (h : (s.core n).world = .sealedW) :
    takeInterrupt n .H v s = partitionExit n 0x21 v (s.core n).pc s := by
  simp [takeInterrupt, h, isSealed]

/-- Any other interrupt is entered at offset 0x200 (R99). -/
theorem takeInterrupt_inside (n v : Nat) (x : Level) (s : State) (h : (s.core n).world = .openW ∨ x = .K) :
    takeInterrupt n x v s = enterLevel n 3 x 0x200 (s.core n).pc (w64 (2 ^ 63 + v)) 0 s := by
  rcases h with h | rfl
  · simp [takeInterrupt, h, isSealed]
  · simp [takeInterrupt]

/-- Settles O27: an interrupt is entered as `entered` says but for what monitoring leaves; in a partition an H interrupt, and a stop,
end in the core that `LeftPartition` describes. -/
theorem interruptEntry : Obligations.InterruptEntry := by
  intro n s hready hsync
  obtain ⟨-, hrun, hwait⟩ := atBoundary_of_coreReady hready
  refine ⟨fun x v hdue hsq hinside hfetch => ?_, fun v r hdue hworld hr => ?_, fun r hr hstate => ?_⟩
  · rw [exec_interruptEntry_of_due hready hsync hdue, takeInterrupt_inside n v x s hinside]
    exact unseen_answer n (unseen_enterLevel n 3 x 0x200 _ 0 s hrun hwait hsq hfetch)
  · rw [exec_interruptEntry_of_due hready hsync hdue, takeInterrupt_sealed_H n v s hworld]
    obtain ⟨t, ht, hw, hl, hg, -, hreason, hqual⟩ := answer_partitionExit n 0x21 v (s.core n).pc s r hr
    exact ⟨t, ht, hw, hl, hg, hreason, hqual⟩
  · rw [exec_partitionStopExit_of_stopped hready hsync hr hstate]
    obtain ⟨t, ht, hw, hl, hg, hrunning, hreason, -⟩ := answer_partitionExit n 0x23 0 (s.core n).pc s r hr
    exact ⟨t, ht, hw, hl, hg, hreason, hrunning⟩

end Sys2Proof.Pipeline

/-! Proofs of the statements on the Trelwaid fabric (O2, O30, O38, O39). -/

namespace Sys2Proof.Trelwaid

open Sys2Proof.Machine Sys2Proof.Claims

/-! ## Fields of registers -/

theorem testBit_fld (v : W64) (hi lo i : Nat) : (fld v hi lo).testBit i = (decide (i < hi + 1 - lo) && v.getLsbD (lo + i)) := by
  rw [fld, Nat.testBit_mod_two_pow, Nat.testBit_shiftRight]
  rfl

theorem fld_setFld_same (v : W64) {hi lo x : Nat} (h : lo ≤ hi) (hi64 : hi < 64) (hx : x < 2 ^ (hi + 1 - lo)) :
    fld (setFld v hi lo x) hi lo = x := by
  refine Nat.eq_of_testBit_eq fun i => ?_
  rw [testBit_fld]
  by_cases hi' : i < hi + 1 - lo
  · rw [Pipeline.getLsbD_setFld v x h (by omega), if_pos (by omega), Nat.add_sub_cancel_left, decide_eq_true hi', Bool.true_and]
  · rw [decide_eq_false hi', Bool.false_and,
      Nat.testBit_lt_two_pow (Nat.lt_of_lt_of_le hx (Nat.pow_le_pow_right (by decide) (Nat.le_of_not_lt hi')))]

theorem fld_setFld_disjoint (v : W64) {hi lo hi' lo' : Nat} (x : Nat) (h : lo ≤ hi) (hi64 : hi' < 64)
    (hd : hi < lo' ∨ hi' < lo) : fld (setFld v hi lo x) hi' lo' = fld v hi' lo' := by
  refine Nat.eq_of_testBit_eq fun i => ?_
  rw [testBit_fld, testBit_fld]
  by_cases hin : i < hi' + 1 - lo'
  · rw [Pipeline.getLsbD_setFld v x h (by omega), if_neg (by omega)]
  · rw [decide_eq_false hin, Bool.false_and, Bool.false_and]

theorem regF_setRegF_same (s : State) (r : RegName) (u i : Nat) {hi lo x : Nat} (h : lo ≤ hi) (hi64 : hi < 64)
    (hx : x < 2 ^ (hi + 1 - lo)) : (s.setRegF r hi lo x u i).regF r hi lo u i = x := by
  rw [State.regF, State.reg_setRegF_same, fld_setFld_same _ h hi64 hx]

theorem regF_setRegF_disjoint (s : State) (r : RegName) (u i : Nat) {hi lo hi' lo' : Nat} (x : Nat) (h : lo ≤ hi)
    (hi64 : hi' < 64) (hd : hi < lo' ∨ hi' < lo) : (s.setRegF r hi lo x u i).regF r hi' lo' u i = s.regF r hi' lo' u i := by
  rw [State.regF, State.reg_setRegF_same, fld_setFld_disjoint _ x h hi64 hd, State.regF]

theorem regF_congr {s t : State} (h : s.crs = t.crs) (r : RegName) (hi lo u i : Nat) : s.regF r hi lo u i = t.regF r hi lo u i := by
  rw [State.regF, State.reg_congr h, State.regF]

/-! ## Error records (R594 to R599) -/

/-- What a record in a bank may leave: that bank's registers, interrupt inputs of pairs, the structures that are out of Finish, and
the full records of sealed accesses. -/
def Recorded (b : BankId) (s t : State) : Prop :=
  t = { s with crs := t.crs, pairs := t.pairs, ras := t.ras, sealedRecs := t.sealedRecs } ∧ OnlyBanks [b] s t

theorem Recorded.refl (b : BankId) (s : State) : Recorded b s s := ⟨rfl, fun _ _ => rfl⟩

theorem Recorded.trans {b : BankId} {s t u : State} (h : Recorded b s t) (h' : Recorded b t u) : Recorded b s u := by
  refine ⟨?_, fun k hk => (h'.2 k hk).trans (h.2 k hk)⟩
  rw [h'.1, h.1]

theorem recorded_setReg (b : BankId) (s : State) (r : RegName) (v : W64) (i : Nat) (hr : r.place.block = .bank)
    (hi : r.place.off + r.place.stride * i < 0x100) : Recorded b s (s.setReg r v (bankBase b) i) := by
  refine ⟨rfl, fun k hk => NMap.find?_set_ne _ _ _ ?_⟩
  obtain ⟨hlow, htop⟩ := bank_key r b i hr hi
  have hout := hk b (List.mem_singleton.mpr rfl)
  omega

/-- Registers of the four slots of a bank lie in the bank. -/
theorem recorded_setSlot (b : BankId) (s : State) (r : RegName) (v : W64) {k : Nat} (hk : k < 4)
    (hr : r ∈ [RegName.ERR_STATUS, .ERR_ADDR, .ERR_MISC, .ERR_TIME]) : Recorded b s (s.setReg r v (bankBase b) k) := by
  simp only [List.mem_cons, List.not_mem_nil, or_false] at hr
  obtain rfl | rfl | rfl | rfl := hr
  all_goals exact recorded_setReg b s _ v k rfl (by simp only [RegName.place]; omega)

theorem recorded_takeInj (b : BankId) (s : State) (e : ErrRec) : Recorded b s (takeInj s b e).2 := by
  unfold takeInj
  split
  · exact recorded_setReg b s .ERR_INJ _ 0 rfl (by decide)
  · exact .refl b s

theorem recorded_noteRecord (b : BankId) (s : State) (e : ErrRec) : Recorded b s (noteRecord b e s) := by
  unfold noteRecord
  dsimp only
  split <;> split <;> exact ⟨rfl, fun _ _ => rfl⟩

theorem recorded_writeRecord (b : BankId) (s : State) (e : ErrRec) {k : Nat} (lost : Bool) (hk : k < 4) :
    Recorded b s (writeRecord s b e k lost) :=
  (((recorded_setSlot b _ .ERR_STATUS _ hk (by decide)).trans (recorded_setSlot b _ .ERR_ADDR _ hk (by decide))).trans
    (recorded_setSlot b _ .ERR_MISC _ hk (by decide))).trans (recorded_setSlot b _ .ERR_TIME _ hk (by decide))

theorem recorded_signalRecord (b : BankId) (s : State) (e : ErrRec) : Recorded b s (signalRecord b e s) := by
  unfold signalRecord
  dsimp only
  split <;> split <;> exact ⟨rfl, fun _ _ => rfl⟩

/-- A record, wherever R594 places it, leaves everything outside its bank's registers but what `Recorded` lists. -/
theorem recorded_record (b : BankId) (e : ErrRec) (s : State) : Recorded b s (record b e s) := by
  have noted : Recorded b s (noteRecord b (takeInj s b e).1 (takeInj s b e).2) :=
    (recorded_takeInj b s e).trans (recorded_noteRecord b _ _)
  refine noted.trans ?_
  have hlt := placeRecord_lt (noteRecord b (takeInj s b e).1 (takeInj s b e).2) b (takeInj s b e).1
  unfold record
  dsimp only
  split
  next k hk =>
    have hk4 := hlt k (.inl hk)
    exact (recorded_setSlot b _ .ERR_STATUS _ hk4 (by decide)).trans (recorded_setSlot b _ .ERR_TIME _ hk4 (by decide))
  next k hk => exact (recorded_writeRecord b _ _ false (hlt k (.inr (.inl hk)))).trans (recorded_signalRecord b _ _)
  next k hk => exact (recorded_writeRecord b _ _ true (hlt k (.inr (.inr hk)))).trans (recorded_signalRecord b _ _)
  next =>
    refine List.foldlRecOn _ _ (recorded_setReg b _ .ERR_CTL _ 0 rfl (by decide)) fun t ht k hk =>
      ht.trans (recorded_setSlot b t .ERR_STATUS _ ?_ (by decide))
    revert k
    decide

@[simp] theorem record_fab (b : BankId) (e : ErrRec) (s : State) : (record b e s).fab = s.fab :=
  (congrArg State.fab (recorded_record b e s).1 :)

@[simp] theorem record_dram (b : BankId) (e : ErrRec) (s : State) : (record b e s).dram = s.dram :=
  (congrArg State.dram (recorded_record b e s).1 :)

@[simp] theorem record_cores (b : BankId) (e : ErrRec) (s : State) : (record b e s).cores = s.cores :=
  (congrArg State.cores (recorded_record b e s).1 :)

/-- A register outside the bank keeps its content. -/
theorem reg_record_of_outside {b : BankId} (e : ErrRec) (s : State) {r : RegName} {u i : Nat}
    (h : r.key u i < bankBase b ∨ bankBase b + 0x100 ≤ r.key u i) : (record b e s).reg r u i = s.reg r u i := by
  have hout : ∀ c ∈ [b], r.key u i < bankBase c ∨ bankBase c + 0x100 ≤ r.key u i := by simpa using h
  rw [State.reg, State.reg, NMap.get, NMap.get, (recorded_record b e s).2 _ hout]

/-- Placing and signalling a record leave what `noteRecord` has noted. -/
theorem record_ras (b : BankId) (e : ErrRec) (s : State) :
    (record b e s).ras = (noteRecord b (takeInj s b e).1 (takeInj s b e).2).ras := by
  have signalled (e : ErrRec) (t : State) : (signalRecord b e t).ras = t.ras := by
    unfold signalRecord
    dsimp only
    split <;> split <;> rfl
  have written (t : State) (e : ErrRec) (k : Nat) (lost : Bool) : (writeRecord t b e k lost).ras = t.ras := by
    dsimp only [writeRecord]
    rw [State.setReg_ras, State.setReg_ras, State.setReg_ras, State.setReg_ras]
  have marked (ks : List Nat) (t : State) : (ks.foldl (fun t k => t.setRegF .ERR_STATUS 62 62 1 (bankBase b) k) t).ras = t.ras :=
    List.foldlRecOn (motive := fun u : State => u.ras = t.ras) ks _ rfl fun u hu k _ => (State.setRegF_ras ..).trans hu
  unfold record
  dsimp only
  split
  · rw [State.setReg_ras, State.bumpReg_ras]
  · rw [signalled, written]
  · rw [signalled, written]
  · rw [marked, State.bumpReg_ras]

/-- The structure of a fatal record takes no part in Finish (R601). -/
theorem mem_dead_record {b : BankId} {e : ErrRec} (s : State) (h : e.cls = .fatal) :
    (b, e.unit.toNat) ∈ (record b e s).ras.dead := by
  have hcls : (takeInj s b e).1.cls = .fatal := by unfold takeInj; split <;> exact h
  have hunit : (takeInj s b e).1.unit = e.unit := by unfold takeInj; split <;> rfl
  rw [record_ras]
  unfold noteRecord
  dsimp only
  rw [hcls, hunit]
  generalize (takeInj s b e).2 = u
  by_cases hdead : u.ras.dead.contains (b, e.unit.toNat) = true
  · have hmem := List.contains_iff_mem.mp hdead
    simp only [hdead, Bool.not_true, Bool.false_eq_true, and_false, if_false]
    split <;> exact hmem
  · rw [Bool.not_eq_true] at hdead
    simp only [hdead, Bool.not_false, and_self, if_true]
    split <;> exact List.mem_append_right _ (List.mem_singleton.mpr rfl)

/-! ## The tick (R259, R505) -/

/-- What a tick may leave beside the timebase: registers, the counters of cores and pairs, egress TLPs, wakes and records. Memory, the
caches, the fabric and the queue stay. -/
def Ticked (s t : State) : Prop :=
  t = { s with crs := t.crs, cores := t.cores, pairs := t.pairs, io := t.io, power := t.power, ras := t.ras,
               sealedRecs := t.sealedRecs, free := t.free }

theorem Ticked.refl (s : State) : Ticked s s := rfl

theorem Ticked.trans {s t u : State} (h : Ticked s t) (h' : Ticked t u) : Ticked s u := by
  unfold Ticked at *
  rw [h', h]

theorem ticked_ite {s t u : State} (c : Prop) [Decidable c] (h : Ticked s t) (h' : Ticked s u) : Ticked s (if c then t else u) := by
  split
  · exact h
  · exact h'

section
variable {s t : State} (h : Ticked s t)
include h

theorem Ticked.setReg (r : RegName) (v : W64) (u i : Nat) : Ticked s (t.setReg r v u i) := h.trans rfl
theorem Ticked.setRegF (r : RegName) (hi lo x u i : Nat) : Ticked s (t.setRegF r hi lo x u i) := h.setReg ..
theorem Ticked.setCore (n : Nat) (c : Core) : Ticked s (t.setCore n c) := h.trans rfl
theorem Ticked.modPair (k : Nat) (f : Pair → Pair) : Ticked s (t.modPair k f) := h.trans rfl

theorem Ticked.record (b : BankId) (e : ErrRec) : Ticked s (record b e t) := by
  have hrec := (recorded_record b e t).1
  refine h.trans ?_
  unfold Ticked
  rw [hrec]

theorem Ticked.deliver (src n v : Nat) (ctl : Controller) : Ticked s (deliver src n ctl v t) := by
  unfold Machine.deliver
  refine ticked_ite _ (h.record ..) ?_
  cases ctl with
  | openK => exact h.setCore ..
  | openH => exact h.setCore ..
  | sealedK p =>
    dsimp only [deliverSealed]
    refine ticked_ite _ (h.setCore ..) ?_
    split
    · exact h.setCore ..
    · exact (h.setCore ..).record ..

theorem Ticked.coreOverflow (n : Nat) : Ticked s (coreOverflow n 8 t) := by
  unfold Machine.coreOverflow
  simp only [Nat.lt_irrefl, if_false, if_true]
  exact ticked_ite _ h ((h.setCore ..).deliver ..)

theorem Ticked.uncOverflow (b stop : Nat) : Ticked s (uncOverflow b stop 4 t) := by
  have cleared := (h.setReg .UNC_CYC 0 b 0).setReg .UNC_CTL (setBit (t.reg .UNC_CTL b) 12 true) b 0
  unfold Machine.uncOverflow
  exact ticked_ite _ h (show Ticked s (if _ then Machine.deliver .. else _) from ticked_ite _ (cleared.deliver ..) cleared)

theorem Ticked.tickCore (n cycles : Nat) : Ticked s (tickCore n cycles t) := by
  unfold Machine.tickCore
  exact ticked_ite _ h (Ticked.setCore (ticked_ite _ h (h.coreOverflow n)) ..)

theorem Ticked.tickUnc (b stop cycles : Nat) : Ticked s (tickUnc b stop cycles t) := by
  unfold Machine.tickUnc
  exact ticked_ite _ h (Ticked.setReg (ticked_ite _ h (h.uncOverflow b stop)) ..)

theorem Ticked.draw : Ticked s t.draw.2 := h.trans rfl

theorem Ticked.tickTile (k : Nat) : Ticked s (tickTile k t) := ((h.draw.tickCore ..).tickCore ..).tickUnc ..

theorem Ticked.tickIo (n : Nat) : Ticked s (tickIo n t) := by
  have counted := h.draw.tickUnc (uncBase (.io n)) (ioStop n) (t.draw.1.toNat % 4096)
  exact ticked_ite _ counted (counted.trans rfl)

theorem Ticked.tickPair (k : Nat) : Ticked s (tickPair k t) := ticked_ite _ (h.modPair ..) h

theorem Ticked.wake (code detail : Nat) : Ticked s (wake code detail t) := by
  unfold Machine.wake
  split
  · exact (((((h.modPair ..).setRegF ..).setRegF ..).setRegF ..).setRegF ..).setRegF ..
  · exact ((h.modPair ..).setRegF .PWR_PKG_STATUS 10 8 1 0 0).trans rfl
  · exact ((h.modPair ..).setRegF .PWR_PKG_STATUS 10 8 1 0 0).trans rfl
  · exact h

theorem Ticked.tickTimer : Ticked s (tickTimer t) := by
  unfold Machine.tickTimer
  exact ticked_ite _ h (ticked_ite _ ((((h.setRegF ..).setRegF ..).modPair ..).wake ..) (h.setRegF ..))

theorem Ticked.foldl {f : State → Nat → State} (ks : List Nat) (hf : ∀ u, Ticked s u → ∀ k, Ticked s (f u k)) :
    Ticked s (ks.foldl f t) :=
  List.foldlRecOn ks f h fun u hu k _ => hf u hu k

end

/-- All of a tick but the timebase and the flag of the fuse cells. -/
theorem ticked_tickAll (s : State) :
    Ticked { s with timeUs := s.timeUs + 1, sec := { s.sec with epochFlag := false } } (tickAll s) :=
  ((((Ticked.refl _).tickTimer.foldl _ fun _ h t => h.tickTile t).foldl _ fun _ h _ => h.tickUnc ..).foldl _ fun _ h n =>
    h.tickIo n).foldl _ fun _ h k => h.tickPair k

/-- Settles O2: a step on an empty queue is a tick, which leaves memory, the caches and the queue (log entry 1). -/
theorem emptyQueueTicks : Obligations.EmptyQueueTicks := by
  intro s hqueue hon
  have ticked := ticked_tickAll s
  have htick : tick s = answer s (tickAll s) := by rw [tick, hon]; rfl
  rw [step_nil s hqueue, htick, answer_next]
  exact ⟨_, rfl, (congrArg State.timeUs ticked :), hqueue, (congrArg State.dram ticked :), (congrArg State.lines ticked :)⟩

/-! ## Requests at the port of their stop (R240, R254, R257) -/

/-- The packet that stands first has no other of its lane before it. -/
theorem ordered_first {s : State} {p : Packet} {rest : List Packet} {q : Packet → Bool} (hnet : s.fab.net = p :: rest)
    (hq : q p = true) : ordered q s = some (p, without s rest) := by
  simp [ordered, hnet, hq, without, State.modFab]

section
variable {q : Packet → Bool} {f : Packet → State → State} {s t : State} {p : Packet} (h : ordered q s = some (p, t))
include h

theorem arriveReq_run (hport : s.regF .NI_PORT 2 0 p.dst = 0) : arriveReq q f s = f p t := by
  simp only [arriveReq, h, hport]

theorem arriveReq_gated (hport : s.regF .NI_PORT 2 0 p.dst = 1) : arriveReq q f s = s.setRegF .NI_PORT 2 0 2 p.dst := by
  simp only [arriveReq, h, hport]

theorem arriveReq_waking (hport : s.regF .NI_PORT 2 0 p.dst = 2) : arriveReq q f s = s := by
  simp only [arriveReq, h, hport]

/-- A port in RESET, RESYNC or FENCED answers a request that its requester waits for. -/
theorem arriveReq_closed {st : Nat} (hport : (s.regF .NI_PORT 2 0 p.dst, st) ∈ [(3, 2), (4, 2), (5, 3)])
    (hwait : awaited p t = true) : arriveReq q f s = send (abortReply p st) t := by
  simp only [List.mem_cons, Prod.mk.injEq, List.not_mem_nil, or_false] at hport
  obtain ⟨hport, rfl⟩ | ⟨hport, rfl⟩ | ⟨hport, rfl⟩ := hport <;> simp only [arriveReq, h, hport, hwait, if_true]

end

/-- Settles O30: RDS, RDO and UPG have the meaning of `l2Request`, which the state of the port at the home's stop decides. -/
theorem requestsAtPorts : Obligations.RequestsAtPorts := by
  intro n line key p rest s e he hnet hfrom hopen
  have hexec : exec (e.1 n line key) s = answer s (l2Request e.2 n line key s) := by
    simp only [List.mem_cons, List.not_mem_nil, or_false] at he
    obtain rfl | rfl | rfl := he <;> rfl
  have hfirst : ordered (fun p => fromCore e.2 n line key p && sliceOpen s (sliceOf p)) s = some (p, without s rest) :=
    ordered_first hnet (by rw [hfrom, hopen]; rfl)
  rw [hexec, l2Request]
  refine ⟨fun hport => ?_, fun hport => ?_, fun hport => ?_, fun st hwait hport => ?_⟩
  · rw [arriveReq_run hfirst hport]
    exact answer_settles ..
  · rw [arriveReq_gated hfirst hport]
    exact answer_settles ..
  · rw [arriveReq_waking hfirst hport]
    exact answer_settles ..
  · rw [arriveReq_closed hfirst hport hwait]
    exact answer_settles ..

/-! ## Registers of a stop's own block (R29 to R31) -/

theorem key_of_stopBlock {r : RegName} (h : r.place.block = .stop) (stop : Nat) : r.key stop 0 = stop <<< 24 + r.place.off := by
  unfold RegName.key
  generalize r.place = p at h ⊢
  obtain ⟨block, off, stride, count⟩ := p
  subst h
  show stop <<< 24 + off + stride * 0 = stop <<< 24 + off
  rw [Nat.mul_zero, Nat.add_zero]

/-- Registers of one stop at different offsets are different registers. -/
theorem key_ne_of_off_ne {r q : RegName} (hr : r.place.block = .stop) (hq : q.place.block = .stop) (h : r.place.off ≠ q.place.off)
    (stop : Nat) : r.key stop 0 ≠ q.key stop 0 := by
  rw [key_of_stopBlock hr, key_of_stopBlock hq]
  exact fun heq => h (Nat.add_left_cancel heq)

/-- The fabric bank of a stop lies above the registers of its NI. -/
theorem key_lt_fabricBank {r : RegName} (hr : r.place.block = .stop) (h : r.place.off < 0xFF2000) (stop : Nat) :
    r.key stop 0 < bankBase (.fabric stop) := by
  rw [key_of_stopBlock hr, bankBase]
  exact Nat.add_lt_add_left h _

/-! ## Records of an NI -/

@[simp] theorem niRecord_fab (stop : Nat) (cls : ErrClass) (type code peer : Nat) (s : State) :
    (niRecord stop cls type code peer s).fab = s.fab := record_fab ..

@[simp] theorem niRecord_dram (stop : Nat) (cls : ErrClass) (type code peer : Nat) (s : State) :
    (niRecord stop cls type code peer s).dram = s.dram := record_dram ..

@[simp] theorem niRecord_cores (stop : Nat) (cls : ErrClass) (type code peer : Nat) (s : State) :
    (niRecord stop cls type code peer s).cores = s.cores := record_cores ..

theorem regF_port_niRecord (stop : Nat) (cls : ErrClass) (type code peer hi lo : Nat) (s : State) :
    (niRecord stop cls type code peer s).regF .NI_PORT hi lo stop = s.regF .NI_PORT hi lo stop := by
  rw [State.regF, niRecord, reg_record_of_outside _ _ (.inl (key_lt_fabricBank rfl (by decide) stop)), State.regF]

/-- An event in NI_WD_LOG is a write of that register. -/
theorem wdLog_eq (stop kind tid peer : Nat) (s : State) : ∃ v, wdLog stop kind tid peer s = s.setReg .NI_WD_LOG v stop := by
  unfold wdLog
  dsimp only
  split <;> exact ⟨_, rfl⟩

@[simp] theorem wdLog_fab (stop kind tid peer : Nat) (s : State) : (wdLog stop kind tid peer s).fab = s.fab := by
  obtain ⟨v, h⟩ := wdLog_eq stop kind tid peer s
  rw [h, State.setReg_fab]

@[simp] theorem wdLog_dram (stop kind tid peer : Nat) (s : State) : (wdLog stop kind tid peer s).dram = s.dram := by
  obtain ⟨v, h⟩ := wdLog_eq stop kind tid peer s
  rw [h, State.setReg_dram]

@[simp] theorem wdLog_cores (stop kind tid peer : Nat) (s : State) : (wdLog stop kind tid peer s).cores = s.cores := by
  obtain ⟨v, h⟩ := wdLog_eq stop kind tid peer s
  rw [h, State.setReg_cores]

theorem regF_port_wdLog (stop kind tid peer hi lo : Nat) (s : State) :
    (wdLog stop kind tid peer s).regF .NI_PORT hi lo stop = s.regF .NI_PORT hi lo stop := by
  obtain ⟨v, h⟩ := wdLog_eq stop kind tid peer s
  rw [h, State.regF, State.reg_setReg_ne _ _ _ _ _ _ _ _ (key_ne_of_off_ne rfl rfl (by decide) stop), State.regF]

/-! ## Flits at a router (R230, R241) -/

/-- The state once an input of a router is empty. -/
def emptied (stop : Nat) (inp : PortDir) (s : State) : State :=
  s.modFab fun b => { b with routers := NMap.set [] b.routers (stop * 8 + portNum inp) [] }

theorem emptied_routers (stop : Nat) (inp : PortDir) (s : State) :
    (emptied stop inp s).fab.routers = NMap.set [] s.fab.routers (stop * 8 + portNum inp) [] := rfl

theorem routers_emptied_same (stop : Nat) (inp : PortDir) (s : State) :
    NMap.get [] (emptied stop inp s).fab.routers (stop * 8 + portNum inp) = [] := by
  rw [emptied_routers, NMap.get_set_same]

/-- Inputs of other stops keep their flits. -/
theorem routers_emptied_far {stop far : Nat} (inp d : PortDir) (s : State) (h : far ≠ stop) :
    NMap.get [] (emptied stop inp s).fab.routers (far * 8 + portNum d) = NMap.get [] s.fab.routers (far * 8 + portNum d) := by
  have hinp : portNum inp < 8 := by cases inp <;> decide
  have hd : portNum d < 8 := by cases d <;> decide
  rw [emptied_routers, NMap.get_set_ne _ _ _ (by omega)]

theorem bypassed_of_none {s : State} (h : s.regF .FAB_BYPASS 17 16 = 0) (x : Nat) : bypassed s x = false := by
  simp [bypassed, h]

/-- A flit alone at its input that does not match its check is discarded with a fatal record. -/
theorem exec_flitArrive_of_badHeader {stop : Nat} {inp : PortDir} {f : Flit} {s : State} (hstop : (stopKind stop).isSome = true)
    (hserves : bypassed s stop = false) (halone : NMap.get [] s.fab.routers (stop * 8 + portNum inp) = [f])
    (hbad : f.hchkOk = false) :
    exec (.flitArrive stop inp f) s = answer s (niRecord stop .fatal 0x07 0 f.src.toNat (emptied stop inp s)) := by
  change execFlitArrive stop inp f s = _
  have hsome := Option.isNone_eq_false_iff.mpr hstop
  simp [execFlitArrive, halone, hserves, hsome, hbad, emptied]

/-- A flit of a data plane, alone at an input of a router in service, that meets no injected error and no probe. -/
structure Passes (stop : Nat) (inp : PortDir) (f : Flit) (s : State) : Prop where
  isStop : (stopKind stop).isSome = true
  serves : bypassed s stop = false
  alone : NMap.get [] s.fab.routers (stop * 8 + portNum inp) = [f]
  header : f.hchkOk = true
  uninjected : injArmed s (.fabric stop) 0x20 [4] (f.addr.toNat * 64) = false
  unprobed : probeMatch s stop inp f = false
  dataPlane : f.plane ≠ 2

/-- Such a flit leaves by the output that its route gives. -/
theorem Passes.exec_flitArrive {stop : Nat} {inp dir : PortDir} {f : Flit} {s : State} (h : Passes stop inp f s)
    (hroute : routeFlit stop f = (dir, f)) (hdir : dir ≠ .own) :
    exec (.flitArrive stop inp f) s = answer s (forwardFlit stop dir f (emptied stop inp s)) := by
  change execFlitArrive stop inp f s = _
  have hsome := Option.isNone_eq_false_iff.mpr h.isStop
  have hinj : injArmed (emptied stop inp s) (.fabric stop) 0x20 [4] (f.addr.toNat * 64) = false := h.uninjected
  have hprobe : probeFlit stop inp f (emptied stop inp s) = emptied stop inp s := by
    rw [probeFlit, show probeMatch (emptied stop inp s) stop inp f = false from h.unprobed]
    rfl
  have hcast : ¬(f.plane = 2#2 ∧ f.dst = 0xFF#8) := fun hc => h.dataPlane hc.1
  unfold emptied at hinj hprobe ⊢
  simp [execFlitArrive, h.alone, h.serves, hsome, h.header, hinj, hprobe, hcast, hroute, hdir]

/-- A flit that leaves for a neighbour whose input is empty stands there alone. -/
theorem forwardFlit_reaches {stop far : Nat} {inp dir : PortDir} {f : Flit} {s : State}
    (hnext : neighbour s stop dir = some far) (hfar : far ≠ stop)
    (hfree : NMap.get [] s.fab.routers (far * 8 + portNum (farInput dir)) = []) :
    NMap.get [] (forwardFlit stop dir f (emptied stop inp s)).fab.routers (far * 8 + portNum (farInput dir)) = [f] ∧
      (forwardFlit stop dir f (emptied stop inp s)).fab.net = s.fab.net := by
  have hnext' : neighbour (emptied stop inp s) stop dir = some far := hnext
  have hfree' := (routers_emptied_far inp (farInput dir) s hfar).trans hfree
  refine ⟨?_, by simp only [forwardFlit, hnext']; rfl⟩
  simp only [forwardFlit, hnext', State.modFab, NMap.get_set_same, hfree', List.nil_append]

theorem neighbour_west {s : State} (h : s.regF .FAB_BYPASS 17 16 = 0) {stop : Nat} (hcol : stop % 16 ≠ 0) :
    neighbour s stop .west = some (stop - 1) := by
  simp [neighbour, bypassed_of_none h, hcol]

theorem neighbour_east {s : State} (h : s.regF .FAB_BYPASS 17 16 = 0) {stop : Nat} (hcol : stop % 16 < 12) :
    neighbour s stop .east = some (stop + 1) := by
  simp [neighbour, bypassed_of_none h, Nat.not_le.mpr hcol]

theorem neighbour_north {s : State} (h : s.regF .FAB_BYPASS 17 16 = 0) {stop : Nat} (hrow : stop / 16 ≠ 0) :
    neighbour s stop .north = some (stop - 16) := by
  simp only [neighbour, hrow, if_false, bypassed_of_none h, Bool.false_eq_true]

section
variable {stop : Nat} {f : Flit} (hwpt : f.wpt = false)
include hwpt

theorem routeFlit_west (hvn : f.vn = false) (h : f.dst.toNat % 16 < stop % 16) : routeFlit stop f = (.west, f) := by
  simp [routeFlit, hwpt, hvn, h]

theorem routeFlit_east (hvn : f.vn = false) (h : stop % 16 < f.dst.toNat % 16) : routeFlit stop f = (.east, f) := by
  simp [routeFlit, hwpt, hvn, h, Nat.lt_asymm h]

theorem routeFlit_north (hvn : f.vn = true) (h : f.dst.toNat / 16 < stop / 16) : routeFlit stop f = (.north, f) := by
  simp [routeFlit, hwpt, hvn, h]

end

/-! ## Ports that return to RUN (R254, R257, R668) -/

@[simp] theorem refreshFreeze_crs (stop : Nat) (s : State) : (refreshFreeze stop s).crs = s.crs := by
  unfold refreshFreeze
  dsimp only
  split <;> rfl

@[simp] theorem refreshFreeze_fab (stop : Nat) (s : State) : (refreshFreeze stop s).fab = s.fab := by
  unfold refreshFreeze
  dsimp only
  split <;> rfl

@[simp] theorem refreshFreeze_dram (stop : Nat) (s : State) : (refreshFreeze stop s).dram = s.dram := by
  unfold refreshFreeze
  dsimp only
  split <;> rfl

theorem settle_crs_refreshFreeze (stop : Nat) (s : State) : (settle (refreshFreeze stop s)).crs = s.crs :=
  (settle_crs _).trans (refreshFreeze_crs stop s)

/-- A port that wakes returns to RUN; with nothing held there, nothing crosses. -/
theorem exec_islandReady_of_waking {stop : Nat} {s : State} (hstop : (stopKind stop).isSome = true)
    (hport : s.regF .NI_PORT 2 0 stop = 2) (hheld : NMap.get [] s.fab.heldFlits stop = []) :
    exec (.islandReady stop) s = answer s (refreshFreeze stop
      ((s.setRegF .NI_PORT 2 0 0 stop).modFab fun b => { b with heldFlits := NMap.erase b.heldFlits stop })) := by
  change execIslandReady stop s = _
  have hheld' : NMap.get [] (s.setRegF .NI_PORT 2 0 0 stop).fab.heldFlits stop = [] := hheld
  simp only [execIslandReady, hstop, hport, releaseHeld, hheld', List.foldl_nil, beq_self_eq_true, Bool.and_self, if_true]

theorem exec_creditResync_of_resync {stop : Nat} {s : State} (hstop : (stopKind stop).isSome = true)
    (hport : s.regF .NI_PORT 2 0 stop = 4) :
    exec (.creditResync stop) s = answer s (refreshFreeze stop (s.setReg .NI_PORT 0 stop)) := by
  change execCreditResync stop s = _
  simp [execCreditResync, hstop, hport]

/-! ## Route entries (R244, R245) -/

/-- With no router bypassed an NI takes every plain route. -/
theorem routeReject_of_plainRoute {s : State} {stop d : Nat} {v : W64} (hbypass : s.regF .FAB_BYPASS 17 16 = 0)
    (h : plainRoute stop d v) : routeReject s stop d v = 0 := by
  obtain ⟨hd, hwp, hkind⟩ := h
  have hsome := Option.isNone_eq_false_iff.mpr hd
  have hkind2 : fld v 1 0 ≠ 2 := by
    rcases hkind with h | ⟨h, -⟩ <;> omega
  have hturns : turnsBad s stop d (fld v 1 0) (fld v 15 8) = false := by
    unfold turnsBad
    dsimp only
    split <;> simp only [bypassed_of_none hbypass] <;> repeat' split
    all_goals rfl
  have hown : ¬(d = stop ∧ fld v 1 0 ≠ 0) := by
    rcases hkind with h | ⟨-, h⟩ <;> simp [h]
  rw [hwp] at hturns
  simp [routeReject, hsome, bypassed_of_none hbypass, hkind2, hwp, hturns, hown]

/-- Level F and CX0 write a plain route. -/
theorem exec_niRtWrite_of_plainRoute {r : Req} {stop d : Nat} {v : W64} {s : State} (hstop : (stopKind stop).isSome = true)
    (hd : d < 256) (hbypass : s.regF .FAB_BYPASS 17 16 = 0) (hr : isF r = true ∨ r = .cx 0) (hplain : plainRoute stop d v) :
    exec (.niRtWrite r stop d v) s = answer s (s.writeReg .NI_RT v stop d) := by
  change execNiRtWrite r stop d v s = _
  have hmay : (isF r || r == .cx 0) = true := by simpa using hr
  simp only [execNiRtWrite, hstop, hd, decide_true, Bool.and_self, if_true, writeRoute, hmay, Bool.not_true, Bool.false_eq_true,
    if_false, routeReject_of_plainRoute hbypass hplain]

/-! ## Probe registers (R271) -/

theorem mayWriteProbe_iff (r : Req) : (isHF r || r == .cx 0 || r == .cx 2) = true ↔ isHF r = true ∨ r = .cx 0 ∨ r = .cx 2 := by
  simp [or_assoc]

theorem writeProbe_of_denied {r : Req} {n : RegName} {stop : Nat} {v : W64} {s : State}
    (h : ¬(isHF r = true ∨ r = .cx 0 ∨ r = .cx 2)) : writeProbe r n stop v s = s := by
  rw [← mayWriteProbe_iff, Bool.not_eq_true] at h
  rw [writeProbe, h]
  rfl

/-- A write of PRB_CTL by one that may write it restarts the trace (Table 06-23). -/
theorem writeProbe_of_allowed {r : Req} {stop : Nat} {v : W64} {s : State} (h : isHF r = true ∨ r = .cx 0 ∨ r = .cx 2) :
    writeProbe r .PRB_CTL stop v s =
      ((s.writeReg .PRB_CTL v stop).setRegF .PRB_STATUS 62 62 0 stop).setRegF .PRB_STATUS 20 0 0 stop := by
  rw [writeProbe, (mayWriteProbe_iff r).mpr h]
  rfl

theorem exec_prbCtlWrite {r : Req} {stop : Nat} {v : W64} {s : State} (hstop : (stopKind stop).isSome = true) :
    exec (.prbCtlWrite r stop v) s = answer s (writeProbe r .PRB_CTL stop v s) := by
  change execPrbCtlWrite r stop v s = _
  rw [execPrbCtlWrite, if_pos hstop]

theorem onlyRegs_refl (s : State) : OnlyRegs s s := ⟨rfl, .refl s⟩

theorem onlyRegs_setReg {s t : State} (h : OnlyRegs s t) (r : RegName) (v : W64) (u i : Nat) : OnlyRegs s (t.setReg r v u i) := by
  obtain ⟨heq, hpairs⟩ := h
  refine ⟨?_, hpairs⟩
  rw [heq]
  rfl

/-- What changes registers alone does so to the end of the command. -/
theorem onlyRegs_answer {s₀ s t : State} (h : OnlyRegs s t) :
    ∃ u, answer s₀ t = .next u ∧ OnlyRegs s u ∧ u.crs = t.crs := by
  obtain ⟨heq, hpairs⟩ := h
  refine ⟨_, answer_next s₀ t, ⟨?_, hpairs.trans (pairsAlike_settle t)⟩, rfl⟩
  rw [heq]
  rfl

/-- PRB_CTL takes its fields, and PRB_STATUS shows an empty trace. -/
theorem prbCtlWrite_restarts {r : Req} {stop : Nat} {v : W64} {s : State} (hstop : (stopKind stop).isSome = true)
    (h : isHF r = true ∨ r = .cx 0 ∨ r = .cx 2) :
    Writesto s (exec (.prbCtlWrite r stop v) s) fun t =>
      t.reg .PRB_CTL stop = RegName.PRB_CTL.merge (s.reg .PRB_CTL stop) v ∧ t.regF .PRB_STATUS 62 62 stop = 0 ∧
        t.regF .PRB_STATUS 20 0 stop = 0 := by
  rw [exec_prbCtlWrite hstop, writeProbe_of_allowed h]
  have hother : RegName.PRB_CTL.key stop 0 ≠ RegName.PRB_STATUS.key stop 0 := key_ne_of_off_ne rfl rfl (by decide) stop
  have hctl : (s.writeReg .PRB_CTL v stop).reg .PRB_CTL stop = RegName.PRB_CTL.merge (s.reg .PRB_CTL stop) v :=
    State.reg_setReg_same ..
  have honly : OnlyRegs s (s.writeReg .PRB_CTL v stop) := onlyRegs_setReg (onlyRegs_refl s) ..
  generalize s.writeReg .PRB_CTL v stop = w at hctl honly ⊢
  obtain ⟨t, ht, hregs, hcrs⟩ := onlyRegs_answer (s₀ := s) (onlyRegs_setReg (onlyRegs_setReg honly .PRB_STATUS
    (setFld (w.reg .PRB_STATUS stop) 62 62 0) stop 0) .PRB_STATUS
    (setFld ((w.setRegF .PRB_STATUS 62 62 0 stop).reg .PRB_STATUS stop) 20 0 0) stop 0)
  refine ⟨t, ht, hregs, ?_, ?_, ?_⟩
  · rw [State.reg_congr hcrs, State.reg_setReg_ne _ _ _ _ _ _ _ _ hother, State.reg_setReg_ne _ _ _ _ _ _ _ _ hother, hctl]
  · rw [regF_congr hcrs]
    exact (regF_setRegF_disjoint _ _ _ _ _ (by decide) (by decide) (by decide)).trans
      (regF_setRegF_same _ _ _ _ (by decide) (by decide) (by decide))
  · rw [regF_congr hcrs]
    exact regF_setRegF_same _ _ _ _ (by decide) (by decide) (by decide)

/-! ## A stop's router, NI and port -/

/-- A flit that passes and whose route leads to a neighbour with an empty input goes there. -/
theorem Passes.reaches {stop far : Nat} {inp dir : PortDir} {f : Flit} {s : State} (h : Passes stop inp f s)
    (hroute : routeFlit stop f = (dir, f)) (hdir : dir ≠ .own) (hnext : neighbour s stop dir = some far) (hfar : far ≠ stop)
    (hfree : NMap.get [] s.fab.routers (far * 8 + portNum (farInput dir)) = []) :
    ∃ t : State, exec (.flitArrive stop inp f) s = .next t ∧
      NMap.get [] t.fab.routers (far * 8 + portNum (farInput dir)) = [f] ∧ t.fab.net = s.fab.net := by
  rw [h.exec_flitArrive hroute hdir, answer_next]
  exact ⟨_, rfl, forwardFlit_reaches hnext hfar hfree⟩

/-- Settles O38: each clause by the equation of its command; the three directions differ only in the route and the neighbour. -/
theorem routersAndPorts : Obligations.RoutersAndPorts := by
  refine ⟨fun stop inp f s hstop hserves halone =>
      ⟨fun hbad => ?_, fun hok hinj hprobe hplane hwpt hbypass dir far hfree => ?_⟩,
    fun stop s hstop => ⟨fun hport hheld => ?_, fun hport => ?_⟩, fun r stop d v s hstop hd hbypass hr hplain => ?_,
    fun r stop v s hstop => ⟨fun hr => prbCtlWrite_restarts hstop hr, fun hr => ?_⟩⟩
  · rw [exec_flitArrive_of_badHeader hstop hserves halone hbad, answer_next]
    refine ⟨_, rfl, ?_⟩
    simp only [settle_fab, settle_ras, niRecord_fab]
    exact ⟨routers_emptied_same stop inp s, rfl, rfl, mem_dead_record _ rfl⟩
  · have hpass : Passes stop inp f s := ⟨hstop, hserves, halone, hok, hinj, hprobe, hplane⟩
    refine ⟨fun hvn hdst hdir hfar => ?_, fun hvn hdst hcol hdir hfar => ?_, fun hvn hdst hdir hfar => ?_⟩ <;> subst hdir hfar
    · exact hpass.reaches (routeFlit_west hwpt hvn hdst) (by decide) (neighbour_west hbypass (by omega)) (by omega) hfree
    · exact hpass.reaches (routeFlit_east hwpt hvn hdst) (by decide) (neighbour_east hbypass hcol) (by omega) hfree
    · exact hpass.reaches (routeFlit_north hwpt hvn hdst) (by decide) (neighbour_north hbypass (by omega)) (by omega) hfree
  · rw [exec_islandReady_of_waking hstop hport hheld, answer_next]
    have hregs := (settle_crs_refreshFreeze stop _).trans (State.modFab_crs (s.setRegF .NI_PORT 2 0 0 stop) fun b =>
      { b with heldFlits := NMap.erase b.heldFlits stop })
    refine ⟨_, rfl, (regF_congr hregs ..).trans (regF_setRegF_same _ _ _ _ (by decide) (by decide) (by decide)),
      (regF_congr hregs ..).trans (regF_setRegF_disjoint _ _ _ _ _ (by decide) (by decide) (by decide)), ?_, ?_⟩
    · simp only [settle_fab, refreshFreeze_fab]
      rfl
    · simp only [settle_dram, refreshFreeze_dram, State.modFab_dram, State.setRegF_dram]
  · rw [exec_creditResync_of_resync hstop hport, answer_next]
    have hregs := settle_crs_refreshFreeze stop (s.setReg .NI_PORT 0 stop)
    refine ⟨_, rfl, (State.reg_congr hregs ..).trans (State.reg_setReg_same ..), ?_, ?_⟩
    · simp only [settle_fab, refreshFreeze_fab, State.setReg_fab]
    · simp only [settle_dram, refreshFreeze_dram, State.setReg_dram]
  · rw [exec_niRtWrite_of_plainRoute hstop hd hbypass hr hplain]
    exact answer_settles ..
  · rw [exec_prbCtlWrite hstop, writeProbe_of_denied hr]
    exact answer_settles ..

/-! ## Watchdogs (R259, R260) -/

/-- What a watchdog leaves of an outstanding request: its number is held until nine marks have come. -/
def heldOut (stop tid : Nat) (o : Out) : Out := if o.stop = stop ∧ o.tid = tid then { o with held := true, marks := 9 } else o

theorem findOut_map_heldOut {s t : State} {stop tid : Nat} {o : Out} (h : findOut s stop tid = some o)
    (houts : t.fab.outs = s.fab.outs.map (heldOut stop tid)) :
    findOut t stop tid = some { o with held := true, marks := 9 } := by
  have hkey : ((fun o : Out => o.stop == stop && o.tid == tid) ∘ heldOut stop tid) = fun o => o.stop == stop && o.tid == tid := by
    funext o
    simp only [Function.comp, heldOut]
    split <;> rfl
  have ho : o.stop = stop ∧ o.tid = tid := by simpa using List.find?_some h
  rw [findOut] at h
  rw [findOut, houts, List.find?_map, hkey, h, Option.map_some, heldOut, if_pos ho]

/-- An aborted fill of a core that waits for nothing and has no retired store changes the core and its bank, and no packet. -/
theorem fillAborted_fab_of_idle {n : Nat} {s : State} (line key status : Nat) (hwait : (s.core n).wait = none)
    (hsq : (s.core n).sq = []) : (fillAborted n line key status s).fab = s.fab := by
  have hline : waitsLine s n line = false := by simp only [waitsLine, hwait]
  have hstore : storeNeeds s n line = false := by simp only [storeNeeds, hsq]
  rw [fillAborted, hline, hstore]
  split
  · rfl
  · exact record_fab ..

/-- The state in which the requester receives its abort: the number held, the event logged, a Fence on its way. -/
def watchdogFired (stop tid : Nat) (o : Out) (s : State) : State :=
  send (mkPacket .Fence stop o.dst tid 0 0 .ni .ni) (niRecord stop .uncorrected 0x06 0 o.dst (wdLog stop 0 tid o.dst
    (s.modFab fun b => { b with outs := b.outs.map (heldOut stop tid) })))

theorem watchdogFired_fab (stop tid : Nat) (o : Out) (s : State) :
    (watchdogFired stop tid o s).fab = { s.fab with outs := s.fab.outs.map (heldOut stop tid),
                                                    net := s.fab.net ++ [mkPacket .Fence stop o.dst tid 0 0 .ni .ni] } := by
  simp only [watchdogFired, send, State.modFab, niRecord_fab, wdLog_fab]

theorem watchdogFired_core (stop tid n : Nat) (o : Out) (s : State) : (watchdogFired stop tid o s).core n = s.core n := by
  refine State.core_congr ?_ n
  simp only [watchdogFired, send, State.modFab_cores, niRecord_cores, wdLog_cores]

theorem exec_watchdogFire_of_core {s : State} {stop tid n : Nat} {o : Out} (ho : findOut s stop tid = some o)
    (hheld : o.held = false) (hwho : o.who = .core n) (hop : o.op = .RdS) (hsync : syncBlocked s n = false) :
    exec (.watchdogFire stop tid) s = answer s (fillAborted n o.addr o.key 6 (watchdogFired stop tid o s)) := by
  change execWatchdogFire stop tid s = _
  simp only [execWatchdogFire, ho, hwho, hsync, hheld, Bool.or_self, Bool.false_eq_true, if_false, abortOut, hop]
  rfl

/-! ## Fences (R260 to R262) -/

theorem takePacket_first {s : State} {p : Packet} {rest : List Packet} {q : Packet → Bool} (hnet : s.fab.net = p :: rest)
    (hq : q p = true) : takePacket q s = some (p, without s rest) := by
  simp [takePacket, hnet, hq, without, State.modFab]

theorem foldl_send {α : Type} (g : α → Packet) (ks : List α) (s : State) :
    ks.foldl (fun s k => send (g k) s) s = s.modFab fun f => { f with net := f.net ++ ks.map g } := by
  induction ks generalizing s with
  | nil => simp [State.modFab]
  | cons k ks ih =>
    rw [List.foldl_cons, ih]
    simp [send, State.modFab]

/-- The mark of a fence on a channel. -/
def markTo (stop src tid k : Nat) : Packet := { mkPacket .FenceMark stop src tid 0 0 .ni .ni with arg := k }

theorem sendMarks_eq (stop src tid : Nat) (s : State) :
    sendMarks stop src tid s = s.modFab fun f => { f with net := f.net ++ (List.range 9).map (markTo stop src tid) } :=
  foldl_send (markTo stop src tid) (List.range 9) s

/-- What answering or discarding held flits leaves of the state: memory, what ports hold, and the state of the port. -/
def PortStays (stop : Nat) (s t : State) : Prop :=
  t.dram = s.dram ∧ t.fab.heldFlits = s.fab.heldFlits ∧ t.regF .NI_PORT 2 0 stop = s.regF .NI_PORT 2 0 stop

theorem PortStays.trans {stop : Nat} {s t u : State} (h : PortStays stop s t) (h' : PortStays stop t u) : PortStays stop s u := by
  obtain ⟨hdram, hheld, hport⟩ := h
  obtain ⟨hdram', hheld', hport'⟩ := h'
  exact ⟨hdram'.trans hdram, hheld'.trans hheld, hport'.trans hport⟩

theorem portStays_niAnswer (stop status : Nat) (p : Packet) (s : State) : PortStays stop s (niAnswer p status s) := by
  unfold niAnswer
  split <;> exact ⟨rfl, rfl, rfl⟩

theorem portStays_bumpReg (stop : Nat) (s : State) : PortStays stop s (s.bumpReg .NI_PORT 31 16 stop) :=
  ⟨State.bumpReg_dram .., congrArg Fabric.heldFlits (State.bumpReg_fab ..),
    regF_setRegF_disjoint _ _ _ _ _ (by decide) (by decide) (by decide)⟩

/-- The flits held at a port leave it; the port's state is another's affair. -/
theorem portStays_dropHeld (stop status : Nat) (s : State) :
    PortStays stop (s.modFab fun b => { b with heldFlits := NMap.erase b.heldFlits stop }) (dropHeld stop status s) := by
  refine List.foldlRecOn (motive := PortStays stop _) _ _ ⟨rfl, rfl, rfl⟩ fun t ht f _ => ht.trans ?_
  split
  · split
    · exact portStays_niAnswer ..
    · exact portStays_bumpReg ..
  · exact ⟨rfl, rfl, rfl⟩

theorem fencePort_of_lt {stop : Nat} {s : State} (h : s.regF .NI_PORT 2 0 stop < 3) :
    fencePort stop s = dropHeld stop 3 (s.setRegF .NI_PORT 2 0 5 stop) := by
  unfold fencePort
  split
  · omega
  · omega
  · rfl

/-- A port that was neither closed nor fenced is in FENCED, and holds nothing. -/
theorem fencePort_fences {stop : Nat} {s : State} (h : s.regF .NI_PORT 2 0 stop < 3) :
    (fencePort stop s).regF .NI_PORT 2 0 stop = 5 ∧ NMap.get [] (fencePort stop s).fab.heldFlits stop = [] ∧
      (fencePort stop s).dram = s.dram := by
  rw [fencePort_of_lt h]
  obtain ⟨hdram, hheld, hport⟩ := portStays_dropHeld stop 3 (s.setRegF .NI_PORT 2 0 5 stop)
  refine ⟨(hport.trans (regF_congr (State.modFab_crs ..) ..)).trans
    (regF_setRegF_same _ _ _ _ (by decide) (by decide) (by decide)), ?_, hdram.trans (State.modFab_dram ..)⟩
  rw [hheld, NMap.get]
  exact congrArg (Option.getD · []) (NMap.find?_erase_same s.fab.heldFlits stop)

theorem fencePort_net_of_none {stop : Nat} {s : State} (h : s.regF .NI_PORT 2 0 stop < 3)
    (hheld : NMap.get [] s.fab.heldFlits stop = []) : (fencePort stop s).fab.net = s.fab.net := by
  have hheld' : NMap.get [] (s.setRegF .NI_PORT 2 0 5 stop).fab.heldFlits stop = [] := hheld
  rw [fencePort_of_lt h, dropHeld, hheld']
  rfl

theorem exec_fenceRequest_of_empty {stop src : Nat} {s : State} (hstop : (stopKind stop).isSome = true)
    (hsrc : (stopKind src).isSome = true) (hnet : s.fab.net = []) :
    exec (.fenceRequest stop src) s = answer s (sendMarks stop src 0 (fencePort stop s)) := by
  change execFenceRequest stop src s = _
  have hkinds : ((stopKind stop).isNone || (stopKind src).isNone) = false :=
    Bool.or_eq_false_iff.mpr ⟨Option.isNone_eq_false_iff.mpr hstop, Option.isNone_eq_false_iff.mpr hsrc⟩
  simp only [execFenceRequest, takePacket, hnet, hkinds, List.find?_nil, Bool.false_eq_true, if_false]

theorem exec_ownPortStall_of_waits {stop peer : Nat} {s : State} (hwaits : waitsAtPort s stop = some peer)
    (hstop : (stopKind stop).isSome = true) (hport : s.regF .NI_PORT 2 0 stop < 3) :
    exec (.ownPortStall stop) s =
      answer s (niRecord stop .uncorrected 0x06 2 peer (wdLog stop 2 0 peer (fencePort stop s))) := by
  change execOwnPortStall stop s = _
  have hopen : ((stopKind stop).isNone || decide (3 ≤ s.regF .NI_PORT 2 0 stop)) = false :=
    Bool.or_eq_false_iff.mpr ⟨Option.isNone_eq_false_iff.mpr hstop, decide_eq_false (Nat.not_le.mpr hport)⟩
  simp only [execOwnPortStall, hwaits, hopen, Bool.false_eq_true, if_false]

/-- What a mark on a fence from `stop` to `src` under a transaction number leaves of an outstanding request. -/
def countMark (stop src tid : Nat) (o : Out) : Option Out :=
  if o.stop = stop ∧ o.dst = src ∧ o.tid = tid ∧ o.held then
    (if o.marks ≤ 1 then none else some { o with marks := o.marks - 1 })
  else some o

/-- A mark that stands first in the fabric is counted. -/
theorem exec_fencemark_first {stop src ch : Nat} {p : Packet} {rest : List Packet} {s : State} (hnet : s.fab.net = p :: rest)
    (hmark : isMark stop src ch p = true) :
    exec (.fencemark stop src ch) s =
      answer s ((without s rest).modFab fun b => { b with outs := b.outs.filterMap (countMark stop src p.tid) }) := by
  change execFencemark stop src ch s = _
  have hwaits : markWaits stop src ch s = false := by simp [markWaits, hnet, hmark]
  simp only [execFencemark, takePacket_first hnet hmark, hwaits, Bool.false_eq_true, if_false]
  rfl

theorem filterMap_countMark_one (o : Out) (k : Nat) (hheld : o.held = true) (hmarks : o.marks = k + 1) :
    [o].filterMap (countMark o.stop o.dst o.tid) = if k = 0 then [] else [{ o with marks := k }] := by
  cases k with
  | zero => simp [countMark, hheld, hmarks]
  | succ k => simp [countMark, hheld, hmarks]

/-! ## Acknowledged broadcasts (R252) -/

theorem endBcast_of_not_tagRecov {b : Bcast} (h : b.kind ≠ .tagRecov) (s : State) :
    endBcast b s = s.modFab fun f => { f with bcasts := f.bcasts.erase b } := by
  unfold endBcast
  dsimp only
  split
  next hkind _ => exact absurd hkind h
  next => rfl

/-- An acknowledgement that stands first and is not the last takes its stop from those missing. -/
theorem exec_bcack_first {stop src : Nat} {b : Bcast} {p : Packet} {rest : List Packet} {s : State} (hnet : s.fab.net = p :: rest)
    (hp : p.op = .BcAck ∧ p.dst = stop ∧ p.src = src ∧ p.arg = bcastCode b.kind) (hbcasts : s.fab.bcasts = [b])
    (hb : b.src = stop ∧ b.who = p.to_ ∧ b.arg = p.addr) (hsrc : src ∈ b.missing)
    (hmore : b.missing.filter (fun m => m != src) ≠ []) :
    exec (.bcack stop src b.kind) s = answer s ((without s rest).modFab fun f =>
      { f with bcasts := [{ b with missing := b.missing.filter fun m => m != src }] }) := by
  change execBcack stop src b.kind s = _
  obtain ⟨hop, hdst, hpsrc, harg⟩ := hp
  obtain ⟨hbsrc, hwho, haddr⟩ := hb
  have hfirst : ordered (fun p => p.op == .BcAck && p.dst == stop && p.src == src && p.arg == bcastCode b.kind) s =
      some (p, without s rest) := ordered_first hnet (by simp [hop, hdst, hpsrc, harg])
  have hbcasts' : (without s rest).fab.bcasts = [b] := hbcasts
  simp [execBcack, hfirst, hbcasts', hbsrc, hwho, haddr, hsrc, hmore, State.modFab]

theorem exec_broadcastTimeout_of_one {stop m : Nat} {b : Bcast} {s : State} (hbcasts : s.fab.bcasts = [b])
    (hsam : b.kind ≠ .samUpd) (hbsrc : b.src = stop) (hmissing : b.missing = [m]) :
    exec (.broadcastTimeout stop b.kind) s = answer s (endBcast b (send (mkPacket .Fence stop m 0 0 0 .ni .ni)
      (niRecord stop .uncorrected 0x06 1 m (wdLog stop 1 0 m s)))) := by
  change execBroadcastTimeout stop b.kind s = _
  simp [execBroadcastTimeout, hsam, hbcasts, hbsrc, hmissing]

/-! ## How lost transactions and stops that do not answer are dealt with -/

/-- The core's watchdog sends a Fence and holds the number. -/
theorem watchdogFire_holds {stop tid n : Nat} {o : Out} {s : State} (ho : findOut s stop tid = some o) (hheld : o.held = false)
    (hwho : o.who = .core n) (hop : o.op = .RdS) (hsync : syncBlocked s n = false) (hwait : (s.core n).wait = none)
    (hsq : (s.core n).sq = []) :
    ∃ (t : State) (q : Packet), exec (.watchdogFire stop tid) s = .next t ∧ q ∈ t.fab.net ∧ q.op = .Fence ∧ q.dst = o.dst ∧
      ∃ x, findOut t stop tid = some x ∧ x.held = true ∧ x.marks = 9 := by
  rw [exec_watchdogFire_of_core ho hheld hwho hop hsync, answer_next]
  have hfab := (fillAborted_fab_of_idle o.addr o.key 6 (by rw [watchdogFired_core]; exact hwait)
    (by rw [watchdogFired_core]; exact hsq)).trans (watchdogFired_fab stop tid o s)
  refine ⟨_, mkPacket .Fence stop o.dst tid 0 0 .ni .ni, rfl, ?_, rfl, rfl, _, findOut_map_heldOut ho ?_, rfl, rfl⟩
  · rw [settle_fab, hfab]
    exact List.mem_append_right _ (List.mem_singleton.mpr rfl)
  · rw [settle_fab, hfab]

/-- A fence request to a port that is open and holds nothing fences it and returns a mark on each channel. -/
theorem fenceRequest_marks {stop src : Nat} {s : State} (hstop : (stopKind stop).isSome = true)
    (hsrc : (stopKind src).isSome = true) (hnet : s.fab.net = []) (hheld : NMap.get [] s.fab.heldFlits stop = [])
    (hport : s.regF .NI_PORT 2 0 stop < 3) :
    ∃ t : State, exec (.fenceRequest stop src) s = .next t ∧ t.regF .NI_PORT 2 0 stop = 5 ∧ t.fab.net.length = 9 ∧
      (∀ k < 9, ∃ q ∈ t.fab.net, q.op = .FenceMark ∧ q.src = stop ∧ q.dst = src ∧ q.arg = k) ∧ t.dram = s.dram := by
  obtain ⟨hfenced, -, hdram⟩ := fencePort_fences hport
  have hempty := (fencePort_net_of_none hport hheld).trans hnet
  rw [exec_fenceRequest_of_empty hstop hsrc hnet, sendMarks_eq, answer_next]
  generalize fencePort stop s = u at hfenced hdram hempty
  have hmarks : (settle (u.modFab fun f => { f with net := f.net ++ (List.range 9).map (markTo stop src 0) })).fab.net =
      (List.range 9).map (markTo stop src 0) := by
    rw [settle_fab]
    exact congrArg (· ++ (List.range 9).map (markTo stop src 0)) hempty
  refine ⟨_, rfl, (regF_congr rfl ..).trans hfenced, ?_, fun k hk => ⟨markTo stop src 0 k, ?_, rfl, rfl, rfl, rfl⟩, hdram⟩
  · rw [hmarks, List.length_map, List.length_range]
  · rw [hmarks]
    exact List.mem_map_of_mem (List.mem_range.mpr hk)

/-- A port that its own island stalls is fenced, and what waited there is gone. -/
theorem ownPortStall_fences {stop peer : Nat} {s : State} (hwaits : waitsAtPort s stop = some peer)
    (hstop : (stopKind stop).isSome = true) (hport : s.regF .NI_PORT 2 0 stop < 3) :
    ∃ t : State, exec (.ownPortStall stop) s = .next t ∧ t.regF .NI_PORT 2 0 stop = 5 ∧
      NMap.get [] t.fab.heldFlits stop = [] ∧ t.dram = s.dram := by
  obtain ⟨hfenced, hempty, hdram⟩ := fencePort_fences hport
  rw [exec_ownPortStall_of_waits hwaits hstop hport, answer_next]
  generalize fencePort stop s = u at hfenced hempty hdram ⊢
  refine ⟨_, rfl, (regF_congr (settle_crs (niRecord ..)) ..).trans ?_, ?_, ?_⟩
  · rw [regF_port_niRecord, regF_port_wdLog, hfenced]
  · simp only [settle_fab, niRecord_fab, wdLog_fab, hempty]
  · simp only [settle_dram, niRecord_dram, wdLog_dram, hdram]

/-- Settles O39: each clause by the equation of its command. -/
theorem watchdogsAndFences : Obligations.WatchdogsAndFences := by
  refine ⟨fun stop tid n o s => watchdogFire_holds, fun stop src s => fenceRequest_marks,
    fun stop src ch k p o s hnet hop hdst hsrc harg houts hostop hodst htid hoheld hmarks => ?_,
    fun stop peer s => ownPortStall_fences,
    fun stop src other k b p s hnet hop hdst hsrc harg hbcasts hkind hbsrc hwho haddr hmissing hne => ?_,
    fun stop m k b s hbcasts hsam htag hkind hbsrc hmissing => ?_⟩
  · subst hostop hodst
    have hmark : isMark o.stop o.dst ch p = true := by simp [isMark, hop, hdst, hsrc, harg]
    have hcount : (without s []).fab.outs.filterMap (countMark o.stop o.dst p.tid) =
        if k = 0 then [] else [{ o with marks := k }] := by
      rw [← filterMap_countMark_one o k hoheld hmarks, htid]
      exact congrArg _ houts
    rw [exec_fencemark_first hnet hmark, State.modFab, hcount]
    exact answer_settles ..
  · subst hkind
    have hleft : b.missing.filter (fun m => m != src) = [other] := by simp [hmissing, hne.symm]
    rw [exec_bcack_first hnet ⟨hop, hdst, hsrc, harg⟩ hbcasts ⟨hbsrc, hwho, haddr⟩ (by simp [hmissing]) (by simp [hleft]),
      hleft]
    exact answer_settles ..
  · subst hkind
    rw [exec_broadcastTimeout_of_one hbcasts hsam hbsrc hmissing, endBcast_of_not_tagRecov htag, answer_next]
    refine ⟨_, mkPacket .Fence stop m 0 0 0 .ni .ni, rfl, ?_, ?_, rfl, rfl, rfl, ?_⟩ <;> simp [send, State.modFab, hbcasts]

end Sys2Proof.Trelwaid
